-- ==== Sys2Proof/Word.lean ====
section
/-! DEFINITION. The word types of the Frame synchronizer: bytes and the three multi-byte widths of the
wire format (spec/00_scope.md R7, spec/30_encoding.md R70). -/

namespace Sys2Proof

/-- A byte of the stream or a byte-wide field. -/
abbrev Byte := BitVec 8

/-- A 16-bit value: the length field, the body offset. -/
abbrev Half := BitVec 16

/-- A 32-bit bit pattern: one parameter. -/
abbrev Word := BitVec 32

/-- A 64-bit bit pattern: the timestamp. -/
abbrev Dword := BitVec 64

/-- The 11-bit select word of spec/30_encoding.md R74. -/
abbrev SelectWord := BitVec 11

end Sys2Proof
end

