-- ==== Sys2Proof/Syntax.lean ====
section
/-! DEFINITION. The input vector of a step (spec/10_state.md R20) and the 23 operations of the operation map
(spec/30_encoding.md R74), one constructor per row of spec/opcode_table.json. -/

namespace Sys2Proof

/-- The six inputs, sampled once per step (spec/10_state.md R20, spec/70_reset_and_hazards.md R246). -/
structure Inputs where
  /-- synchronous reset, active high (driven by the owner) -/
  rst : Bool
  /-- level: the source has closed, or had a fatal I/O error -/
  srcClosed : Bool
  /-- level: the owner's stop request -/
  stop : Bool
  /-- pulse: the source's configured timeout ran out -/
  inTimeout : Bool
  /-- a byte is offered on `inData` -/
  inValid : Bool
  /-- the offered byte -/
  inData : Byte
  deriving DecidableEq, Repr, Inhabited

/-- The operations of spec/30_encoding.md R74. The byte operations (rows 8 to 17) carry the consumed byte
`b` = `in_data`, "the operand `b` of the byte operations". -/
inductive Instr where
  /-- row 1, RESET -/
  | reset
  /-- row 2, RESERVED_STATE -/
  | reservedState
  /-- row 3, HALT_STOPPED -/
  | haltStopped
  /-- row 4, HALT_CLOSED -/
  | haltClosed
  /-- row 5, VALIDATE -/
  | validate
  /-- row 6, CLOSE -/
  | close
  /-- row 7, STOP -/
  | stop
  /-- row 8, HDR1_SCAN -/
  | hdr1Scan (b : Byte)
  /-- row 9, HDR2_MATCH -/
  | hdr2Match (b : Byte)
  /-- row 10, LEN_LO -/
  | lenLo (b : Byte)
  /-- row 11, LEN_HI -/
  | lenHi (b : Byte)
  /-- row 12, TS_BYTE -/
  | tsByte (b : Byte)
  /-- row 13, PARAM_BYTE -/
  | paramByte (b : Byte)
  /-- row 14, MTYPE_BYTE -/
  | mtypeByte (b : Byte)
  /-- row 15, STATUS_BYTE -/
  | statusByte (b : Byte)
  /-- row 16, LOOPC_BYTE -/
  | loopcByte (b : Byte)
  /-- row 17, CHK_BYTE -/
  | chkByte (b : Byte)
  /-- row 18, TIMEOUT_IDLE -/
  | timeoutIdle
  /-- row 19, TIMEOUT_SYNC -/
  | timeoutSync
  /-- row 20, TIMEOUT_LENGTH -/
  | timeoutLength
  /-- row 21, TIMEOUT_PAYLOAD -/
  | timeoutPayload
  /-- row 22, NOP -/
  | nop
  /-- row 23, UNREACHABLE -/
  | unreachable
  deriving DecidableEq, Repr

/-- The operand byte of a byte operation; the other operations have none. -/
def Instr.operand : Instr → Option Byte
  | .hdr1Scan b | .hdr2Match b | .lenLo b | .lenHi b | .tsByte b | .paramByte b
  | .mtypeByte b | .statusByte b | .loopcByte b | .chkByte b => some b
  | .reset | .reservedState | .haltStopped | .haltClosed | .validate | .close | .stop
  | .timeoutIdle | .timeoutSync | .timeoutLength | .timeoutPayload | .nop | .unreachable => none

/-- The "consumes" column of spec/30_encoding.md R74: rows 8 to 17 take `in_data`, no other row does. -/
def Instr.consumes (i : Instr) : Bool := i.operand.isSome

end Sys2Proof
end

