-- ==== Sys2Proof/Config.lean ====
section
/-! DEFINITION. The constants of the wire format (spec/00_scope.md R5: fixed, no register or pin changes them)
and the free values: what the spec leaves open, as opaque constants of which nothing can be proved. -/

namespace Sys2Proof.Config

/-- HDR1, the first header byte. -/
def hdr1 : Byte := 0xEB
/-- HDR2, the second header byte. -/
def hdr2 : Byte := 0x90
/-- TS_BYTES, the size of the timestamp in bytes. -/
def tsBytes : Nat := 8
/-- PARAM_BYTES, the size of one parameter in bytes. -/
def paramBytes : Nat := 4
/-- TRAILER_BYTES: message type, status, loop count and checksum. -/
def trailerBytes : Nat := 4
/-- LEN_OVERHEAD = TS_BYTES + TRAILER_BYTES; length = 12 + 4 x N. -/
def lenOverhead : Nat := 12
/-- LEN_MIN, the smallest well-formed length (N = 0). -/
def lenMin : Nat := 12
/-- LEN_MAX, the largest well-formed length. -/
def lenMax : Nat := 65532
/-- PARAM_CAP, the largest N. -/
def paramCap : Nat := 16380
/-- The size of the parameter buffer PB in bytes, 4 x PARAM_CAP (spec/20_memory.md R51). -/
def pbSize : Nat := 65520

/-- FREE VALUE. The input vector the environment chooses at its `n`-th unlisted step: "Each step's input vector
is the environment's choice" (spec/10_state.md R22). DESIGN CHOICE of form, safe: log entry 1. -/
opaque freeInputs : Nat → Inputs

/-- FREE VALUE. What the byte of PB at an address holds before anything has written it: "PB: unspecified"
(spec/10_state.md R31), "any value" (spec/93_implementation_defined.md I3). DEDUCED, safe: log entry 4. -/
opaque pbInit : Nat → Byte

/-- FREE VALUE. N of a length that is not well-formed, for which spec/10_state.md R32 defines none; kept within
0 <= N <= PARAM_CAP. DESIGN CHOICE, safe: log entry 7. -/
opaque freeParamCount : Half → Fin 16381

end Sys2Proof.Config
end

