-- ==== Sys2Proof/Machine/State.lean ====
section
/-! DEFINITION. The architectural state of spec/10_state.md (R23 to R30), the outputs of the step just taken (R21),
the reasons a step can stop, and the state after reset (R31). -/

namespace Sys2Proof.Machine

/-- The states of the frame state machine, in the order of their 3-bit codes 0 to 7 (spec/10_state.md R23). -/
inductive St where
  /-- 0: look for the first header byte -/
  | idle
  /-- 1: look for the second header byte -/
  | sync
  /-- 2: the two length bytes -/
  | length
  /-- 3: the body bytes -/
  | payload
  /-- 4: compare the checksum, emit the frame's outcome -/
  | validate
  /-- 5: ended by the owner's stop -/
  | stopped
  /-- 6: ended because the source closed -/
  | closed
  /-- 7: the reserved encoding, "never entered" -/
  | reserved
  deriving DecidableEq, Repr

/-- A Record: "the decoded, validated domain object a Frame represents" (spec/00_scope.md glossary,
spec/60_exceptions.md R213). The timestamp and the parameters are bit patterns. -/
structure Record where
  ts : Dword
  params : List Word
  mtype : Byte
  stat : Byte
  loopc : Byte
  deriving DecidableEq, Repr

/-- The outcome type of spec/60_exceptions.md R213 (there "Outcome"). -/
inductive FrameOutcome where
  /-- the checksum matched: the frame's fields -/
  | record (r : Record)
  /-- the byte after 0xEB was not 0x90 -/
  | headerMismatch
  /-- the checksum differed -/
  | checksumMismatch (len : Half) (computed received : Byte)
  /-- a source timeout inside the length field or the body -/
  | shortRead
  /-- a length that is not well-formed -/
  | malformedLength (len : Half)
  /-- the source closed -/
  | sourceClosed
  deriving DecidableEq, Repr

/-- What a step shows outside (spec/10_state.md R21, spec/00_scope.md R9). The outcome port's fields are functions
of `outcome` (Machine/Port.lean). -/
structure Outputs where
  /-- `st_out`: the value of `st` at the start of the step -/
  stOut : St
  /-- `in_ready` -/
  inReady : Bool
  /-- whether `in_data` was taken (R9) -/
  consumed : Bool
  /-- the outcome emitted, if any (R213) -/
  outcome : Option FrameOutcome
  deriving DecidableEq, Repr

/-- The written bytes of PB: addresses strictly rising, each below 65520. An address not listed has never been
written (`Config.pbInit` is what it reads as): log entry 4. -/
abbrev Memory := List Host.Cell

/-- The machine's state. -/
structure State where
  /-- `st` (R23) -/
  st : St
  /-- `off` (R24) -/
  off : Half
  /-- `len` (R25) -/
  len : Half
  /-- `ts` (R26) -/
  ts : Dword
  /-- PB (R27, spec/20_memory.md R51) -/
  pb : Memory
  /-- `mtype` (R28) -/
  mtype : Byte
  /-- `stat` (R28) -/
  stat : Byte
  /-- `loopc` (R28) -/
  loopc : Byte
  /-- `sum` (R29) -/
  sum : Byte
  /-- `rxchk` (R30) -/
  rxchk : Byte
  /-- the outputs of the step just taken (R21) -/
  out : Outputs
  /-- the model's own: the input vectors of the steps to come, the next one first (R22; log entry 1) -/
  inputs : List Inputs
  /-- the model's own: how many input vectors have been drawn from `Config.freeInputs` (log entry 1) -/
  draws : Nat
  deriving DecidableEq, Repr

/-- Why the machine stops with a fault. -/
inductive Fault where
  /-- Raised by RESERVED_STATE and UNREACHABLE: spec/30_encoding.md R76 (a) "A model treats both rows as
  `fault(unreachable)`". Safe: log entry 8. -/
  | unreachable
  /-- Raised by TS_BYTE where `off` is 8 or above: `ts` has no such byte lane (spec/42_payload.md R140 reads
  `off` with 0 <= off < 8). No step selects TS_BYTE there. Safe: log entry 6. -/
  | timestampLane
  /-- Raised by PARAM_BYTE where `off - 8` is no address of PB (spec/20_memory.md R51: addresses 0 to 65519).
  No run from reset meets it. Safe: log entry 6. -/
  | bufferAddress
  deriving DecidableEq, Repr

/-- Why an instruction has no meaning. -/
inductive Refusal where
  /-- Reserved for an operation without a meaning; none is left, so nothing raises it. Safe. -/
  | notModelled (mnemonic : String)
  deriving DecidableEq, Repr

/-- The state right after a reset step (spec/10_state.md R31, spec/70_reset_and_hazards.md R240, R241): IDLE, every
register 0. PB is unspecified there: nothing is listed (log entry 4). The outputs are those of the reset step
(`in_ready = 0`, nothing consumed, no outcome; log entry 3). No input vector is listed (log entry 1). -/
def State.reset : State where
  st := .idle
  off := 0
  len := 0
  ts := 0
  pb := []
  mtype := 0
  stat := 0
  loopc := 0
  sum := 0
  rxchk := 0
  out := { stOut := .idle, inReady := false, consumed := false, outcome := none }
  inputs := []
  draws := 0

end Sys2Proof.Machine
end

