-- ==== Sys2Proof/Machine/Flags.lean ====
section
/-! DEFINITION. The block has no condition flags (spec/10_state.md R34). The one condition it computes is the
checksum comparison: the checksum function of spec/43_validate.md R170, the running sum that computes it
(R171, spec/10_state.md R29) and the comparison of R173. -/

namespace Sys2Proof.Machine

/-- The sum of the bytes' integer values. -/
def byteSum : List Byte → Nat
  | [] => 0
  | b :: bs => b.toNat + byteSum bs

/-- `Checksum(L, mtype, stat, loopc, TB, PBy)` (spec/43_validate.md R170): `len` counts as one 16-bit integer, the
timestamp and the parameters byte by byte. -/
def checksum (len : Half) (mtype stat loopc : Byte) (tsBytes paramBytes : List Byte) : Byte :=
  BitVec.ofNat 8 (len.toNat + mtype.toNat + stat.toNat + loopc.toNat + byteSum tsBytes + byteSum paramBytes)

/-- `sum <- L[7:0]`: the value of the length, mod 256 (spec/41_length.md R122, spec/43_validate.md R171 (a)). -/
def sumSeed (len : Half) : Byte := BitVec.setWidth 8 len

/-- `sum <- sum + b`: 8 bits, wraps mod 256 (spec/42_payload.md R140). -/
def sumAdd (sum b : Byte) : Byte := sum + b

/-- The comparison of VALIDATE, `sum = rxchk` (spec/43_validate.md R173). -/
def checksumMatches (s : State) : Bool := s.sum == s.rxchk

end Sys2Proof.Machine
end

