-- ==== Sys2Proof/Machine/Operands.lean ====
section
/-! DEFINITION. Encodings and derived selectors: the codes of `st` (spec/10_state.md R23), the length field and its
well-formedness (spec/41_length.md R121), N (R32), `fsel` (R33), the timestamp's byte lanes (R26) and the select word
(spec/30_encoding.md R74). -/

namespace Sys2Proof.Machine

/-- The 3-bit code of a state (spec/10_state.md R23). -/
def stCode : St → BitVec 3
  | .idle => 0
  | .sync => 1
  | .length => 2
  | .payload => 3
  | .validate => 4
  | .stopped => 5
  | .closed => 6
  | .reserved => 7

/-- The state of a 3-bit code (spec/10_state.md R23). -/
def stOfCode (c : BitVec 3) : St :=
  if c = 0 then .idle else if c = 1 then .sync else if c = 2 then .length else if c = 3 then .payload
  else if c = 4 then .validate else if c = 5 then .stopped else if c = 6 then .closed else .reserved

/-- STOPPED and CLOSED, the terminal states. -/
def isTerminal : St → Bool
  | .stopped | .closed => true
  | .idle | .sync | .length | .payload | .validate | .reserved => false

/-- IDLE, SYNC, LENGTH and PAYLOAD: the states in which a byte can be taken (spec/10_state.md R21). -/
def isReceiving : St → Bool
  | .idle | .sync | .length | .payload => true
  | .validate | .stopped | .closed | .reserved => false

/-- `len[7:0] <- b`, the other byte unchanged (spec/41_length.md R120). -/
def setLenLow (len : Half) (b : Byte) : Half := (BitVec.extractLsb' 8 8 len ++ b : Half)

/-- `{b, len[7:0]}` (spec/41_length.md R122). -/
def lenWithHigh (len : Half) (b : Byte) : Half := (b ++ BitVec.setWidth 8 len : Half)

/-- Well-formed: "`L mod 4 = 0` and `L >= 12`" (spec/41_length.md R121). -/
def lengthOk (len : Half) : Bool := len.toNat % 4 == 0 && decide (Config.lenMin ≤ len.toNat)

/-- `N(len) = (len >> 2) - 3`, "defined ... whenever `len` is well-formed" (spec/10_state.md R32). For another length
the spec defines no N: a free value (DESIGN CHOICE, safe: log entry 7). -/
def paramCount (len : Half) : Nat :=
  if lengthOk len then len.toNat / 4 - 3 else (Config.freeParamCount len).val

/-- The PAYLOAD rows of spec/10_state.md R33, which partition 0 <= off < len where len >= 12. Outside that the table
gives no row: 7, the reserved value (DEDUCED, safe: log entry 5). -/
def bodySelect (off len : Nat) : BitVec 3 :=
  if len < Config.lenMin then 7
  else if off < 8 then 0
  else if off + 4 < len then 1
  else if off + 4 = len then 2
  else if off + 3 = len then 3
  else if off + 2 = len then 4
  else if off + 1 = len then 5
  else 7

/-- `fsel`, "a 3-bit function of `st`, `off` and `len`" (spec/10_state.md R33). In LENGTH with `off` >= 2 the table
gives no row: 7, as above (log entry 5). -/
def fsel (st : St) (off len : Half) : BitVec 3 :=
  match st with
  | .length => if off = 0 then 0 else if off = 1 then 1 else 7
  | .payload => bodySelect off.toNat len.toNat
  | .idle | .sync | .validate | .stopped | .closed | .reserved => 0

/-- Byte lane `i` of the timestamp, `ts[8*i+7 : 8*i]` (spec/10_state.md R26). -/
def tsLane (ts : Dword) (i : Nat) : Byte := BitVec.extractLsb' (8 * i) 8 ts

/-- `ts[8*i+7 : 8*i] <- b`, the other lanes unchanged (spec/42_payload.md R140). -/
def setTsLane (ts : Dword) (i : Nat) (b : Byte) : Dword :=
  (ts &&& ~~~(BitVec.setWidth 64 (0xFF : Byte) <<< (8 * i))) ||| (BitVec.setWidth 64 b <<< (8 * i))

/-- The select word: `st[10:8] fsel[7:5] rst[4] src_closed[3] stop[2] in_timeout[1] in_valid[0]`
(spec/30_encoding.md R74). -/
def selectWordOf (st : St) (f : BitVec 3) (i : Inputs) : SelectWord :=
  (stCode st ++ f ++ BitVec.ofBool i.rst ++ BitVec.ofBool i.srcClosed ++ BitVec.ofBool i.stop
    ++ BitVec.ofBool i.inTimeout ++ BitVec.ofBool i.inValid : BitVec 11)

end Sys2Proof.Machine
end

