-- ==== Sys2Proof/Machine/Ops.lean ====
section
/-! DEFINITION. The named operations over the parameter buffer and the registers, and the entry of an error (the
block's counterpart of taking an exception, spec/60_exceptions.md R215). There is no return operation (R216). -/

namespace Sys2Proof.Machine

/-! ### The parameter buffer PB (spec/20_memory.md R51) -/

/-- The byte written at an address, if one has been. -/
def pbLookup : Memory → Nat → Option Byte
  | [], _ => none
  | (a, b) :: m, x => if x = a then some b else pbLookup m x

/-- Write a byte, keeping the addresses strictly rising. -/
def pbInsert : Memory → Nat → Byte → Memory
  | [], x, v => [(x, v)]
  | (a, b) :: m, x, v =>
    if x < a then (x, v) :: (a, b) :: m
    else if x = a then (x, v) :: m
    else (a, b) :: pbInsert m x v

/-- Every listed address is at least `lo`, below 65520, and the addresses strictly rise. -/
def pbWfFrom : Nat → Memory → Bool
  | _, [] => true
  | lo, (a, _) :: m => decide (lo ≤ a) && decide (a < Config.pbSize) && pbWfFrom (a + 1) m

/-- The canonical form of PB: addresses strictly rising, each one of PB's own. An unlisted address holds no written
byte, and no entry can say so, so equal written contents are equal lists (log entry 4). -/
def pbWf (m : Memory) : Bool := pbWfFrom 0 m

/-- `PB[a]`: the byte last written, and before any write the free value `Config.pbInit a` (log entry 4). -/
def readPB (s : State) (a : Nat) : Byte := (pbLookup s.pb a).getD (Config.pbInit a)

/-- `MemRead(a, n) = sum over i < n of PB[a+i] << (8*i)` (spec/00_scope.md R8). -/
def memRead (s : State) (a : Nat) : Nat → Nat
  | 0 => 0
  | n + 1 => memRead s a n + (readPB s (a + n)).toNat <<< (8 * n)

/-- Parameter `k` of the current frame, `MemRead(4*k, 4)` (spec/10_state.md R27). -/
def paramWord (s : State) (k : Nat) : Word := BitVec.ofNat 32 (memRead s (4 * k) 4)

/-- The state with PB's written bytes replaced. -/
def withPB (m : Memory) (s : State) : State := { s with pb := m }

/-- `MemWrite(a, 1, v)` (spec/00_scope.md R8). An address PB does not have is a fault (log entry 6). -/
def memWrite (a : Nat) (v : Byte) (s : State) : Host.Outcome State Fault Refusal :=
  if a < Config.pbSize then .next (withPB (pbInsert s.pb a v) s) else .fault .bufferAddress

/-! ### Outputs and the state register -/

/-- The step's `consumed` and `outcome` (spec/00_scope.md R9). -/
def finish (consumed : Bool) (outcome : Option FrameOutcome) (s : State) : State :=
  { s with out := { s.out with consumed := consumed, outcome := outcome } }

/-- `st <- S` (spec/00_scope.md R8). -/
def goTo (st : St) (s : State) : State := { s with st := st }

/-- Error entry: emit the outcome and go to IDLE, nothing else; "Nothing is saved, and no handler, vector or mode is
involved" (spec/60_exceptions.md R215). -/
def raiseError (consumed : Bool) (o : FrameOutcome) (s : State) : State :=
  finish consumed (some o) (goTo .idle s)

/-- Enter a terminal state, with or without an outcome; nothing is consumed (spec/60_exceptions.md R216). -/
def enterTerminal (st : St) (o : Option FrameOutcome) (s : State) : State :=
  finish false o (goTo st s)

/-- What every body byte but the checksum does beside its own register: `sum <- sum + b`, `off <- off + 1`, no outcome
(spec/42_payload.md R140 to R144). -/
def takeBodyByte (b : Byte) (s : State) : State :=
  finish true none { s with sum := sumAdd s.sum b, off := s.off + 1 }

end Sys2Proof.Machine
end

