-- ==== Sys2Proof/Machine/Control.lean ====
section
/-! DEFINITION. Timeouts, stop, close, idle and terminal steps (spec/44_control.md), reset
(spec/70_reset_and_hazards.md R240) and the two reserved rows (spec/30_encoding.md R76 (a)). -/

namespace Sys2Proof.Machine

/-- RESET (spec/70_reset_and_hazards.md R240): every register to its value of spec/10_state.md R31, "PB unchanged", no
outcome, nothing consumed. The environment's input vectors are no state of the block and stay. -/
def execReset (s : State) : Host.Outcome State Fault Refusal :=
  .next (finish false none
    { s with st := .idle, off := 0, len := 0, ts := 0, mtype := 0, stat := 0, loopc := 0, sum := 0, rxchk := 0 })

/-- RESERVED_STATE (spec/30_encoding.md R76 (a)): `fault(unreachable)`, no next state and no outcome. -/
def execReservedState (_ : State) : Host.Outcome State Fault Refusal := .fault .unreachable

/-- HALT_STOPPED (spec/44_control.md R197): no register changes. -/
def execHaltStopped (s : State) : Host.Outcome State Fault Refusal := .next (finish false none s)

/-- HALT_CLOSED (spec/44_control.md R197): no register changes. -/
def execHaltClosed (s : State) : Host.Outcome State Fault Refusal := .next (finish false none s)

/-- CLOSE (spec/44_control.md R195): SOURCE_CLOSED, then CLOSED; a partial frame is abandoned. -/
def execClose (s : State) : Host.Outcome State Fault Refusal :=
  .next (enterTerminal .closed (some .sourceClosed) s)

/-- STOP (spec/44_control.md R194): STOPPED, no outcome; a partial frame is abandoned. -/
def execStop (s : State) : Host.Outcome State Fault Refusal := .next (enterTerminal .stopped none s)

/-- TIMEOUT_IDLE (spec/44_control.md R190): `st <- IDLE` (no change), no outcome. -/
def execTimeoutIdle (s : State) : Host.Outcome State Fault Refusal := .next (finish false none (goTo .idle s))

/-- TIMEOUT_SYNC (spec/44_control.md R191): `st <- SYNC` (no change), no outcome. -/
def execTimeoutSync (s : State) : Host.Outcome State Fault Refusal := .next (finish false none (goTo .sync s))

/-- TIMEOUT_LENGTH (spec/44_control.md R192): SHORT_READ, the partial frame is discarded. -/
def execTimeoutLength (s : State) : Host.Outcome State Fault Refusal := .next (raiseError false .shortRead s)

/-- TIMEOUT_PAYLOAD (spec/44_control.md R193): SHORT_READ, the partial frame is discarded. -/
def execTimeoutPayload (s : State) : Host.Outcome State Fault Refusal := .next (raiseError false .shortRead s)

/-- NOP (spec/44_control.md R196): no register changes. -/
def execNop (s : State) : Host.Outcome State Fault Refusal := .next (finish false none s)

/-- UNREACHABLE (spec/30_encoding.md R76 (a)): `fault(unreachable)`, no next state and no outcome. -/
def execUnreachable (_ : State) : Host.Outcome State Fault Refusal := .fault .unreachable

end Sys2Proof.Machine
end

