-- ==== Sys2Proof/Machine/Length.lean ====
section
/-! DEFINITION. The length-field extractor, spec/41_length.md. -/

namespace Sys2Proof.Machine

/-- LEN_LO (spec/41_length.md R120). -/
def execLenLo (b : Byte) (s : State) : Host.Outcome State Fault Refusal :=
  .next (finish true none { s with len := setLenLow s.len b, off := 1 })

/-- LEN_HI (spec/41_length.md R122): `len <- L` in both cases; a length that is not well-formed is
MALFORMED_LENGTH, a well-formed one starts the body. -/
def execLenHi (b : Byte) (s : State) : Host.Outcome State Fault Refusal :=
  let len := lenWithHigh s.len b
  if lengthOk len then
    .next (finish true none { s with len := len, st := .payload, off := 0, sum := sumSeed len })
  else .next (raiseError true (.malformedLength len) { s with len := len })

end Sys2Proof.Machine
end

