-- ==== Sys2Proof/Machine/Payload.lean ====
section
/-! DEFINITION. The payload unpacker, spec/42_payload.md. -/

namespace Sys2Proof.Machine

/-- TS_BYTE (spec/42_payload.md R140): byte lane `off` of `ts`, for 0 <= off < 8. -/
def execTsByte (b : Byte) (s : State) : Host.Outcome State Fault Refusal :=
  if s.off.toNat < 8 then .next (takeBodyByte b { s with ts := setTsLane s.ts s.off.toNat b })
  else .fault .timestampLane

/-- PARAM_BYTE (spec/42_payload.md R141): `a = off - 8`, `MemWrite(a, 1, b)`. -/
def execParamByte (b : Byte) (s : State) : Host.Outcome State Fault Refusal :=
  match memWrite (s.off - 8).toNat b s with
  | .next t => .next (takeBodyByte b t)
  | .fault r => .fault r
  | .refused r => .refused r

/-- MTYPE_BYTE (spec/42_payload.md R142). -/
def execMtypeByte (b : Byte) (s : State) : Host.Outcome State Fault Refusal :=
  .next (takeBodyByte b { s with mtype := b })

/-- STATUS_BYTE (spec/42_payload.md R143). -/
def execStatusByte (b : Byte) (s : State) : Host.Outcome State Fault Refusal :=
  .next (takeBodyByte b { s with stat := b })

/-- LOOPC_BYTE (spec/42_payload.md R144). -/
def execLoopcByte (b : Byte) (s : State) : Host.Outcome State Fault Refusal :=
  .next (takeBodyByte b { s with loopc := b })

/-- CHK_BYTE (spec/42_payload.md R145): "off stays at len - 1; sum is not changed". -/
def execChkByte (b : Byte) (s : State) : Host.Outcome State Fault Refusal :=
  .next (finish true none { s with rxchk := b, st := .validate })

end Sys2Proof.Machine
end

