-- ==== Sys2Proof/Machine/Sync.lean ====
section
/-! DEFINITION. The header matcher, spec/40_sync.md. -/

namespace Sys2Proof.Machine

/-- HDR1_SCAN (spec/40_sync.md R100): 0xEB goes to SYNC, any other byte is discarded. -/
def execHdr1Scan (b : Byte) (s : State) : Host.Outcome State Fault Refusal :=
  .next (finish true none (goTo (if b = Config.hdr1 then .sync else .idle) s))

/-- HDR2_MATCH (spec/40_sync.md R101): 0x90 starts the length field, any other byte is HEADER_MISMATCH, consumed. -/
def execHdr2Match (b : Byte) (s : State) : Host.Outcome State Fault Refusal :=
  if b = Config.hdr2 then .next (finish true none { s with st := .length, off := 0 })
  else .next (raiseError true .headerMismatch s)

end Sys2Proof.Machine
end

