-- ==== Sys2Proof/Machine/Validate.lean ====
section
/-! DEFINITION. The checksum validator, spec/43_validate.md. -/

namespace Sys2Proof.Machine

/-- The N parameter words of the current frame, in wire order (spec/42_payload.md R148). -/
def paramWords (s : State) : List Word := (List.range (paramCount s.len)).map (paramWord s)

/-- The fields of RECORD (spec/43_validate.md R173). -/
def currentRecord (s : State) : Record :=
  { ts := s.ts, params := paramWords s, mtype := s.mtype, stat := s.stat, loopc := s.loopc }

/-- VALIDATE (spec/43_validate.md R173): the frame's outcome, then IDLE. -/
def execValidate (s : State) : Host.Outcome State Fault Refusal :=
  if checksumMatches s then .next (finish false (some (.record (currentRecord s))) (goTo .idle s))
  else .next (raiseError false (.checksumMismatch s.len s.sum s.rxchk) s)

end Sys2Proof.Machine
end

