-- ==== Sys2Proof/Machine/Dispatch.lean ====
section
/-! DEFINITION. One arm per operation of the operation map, each one call of its meaning. -/

namespace Sys2Proof.Machine

def exec (i : Instr) (s : State) : Host.Outcome State Fault Refusal :=
  match i with
  | .reset => Sys2Proof.Machine.execReset s
  | .reservedState => Sys2Proof.Machine.execReservedState s
  | .haltStopped => Sys2Proof.Machine.execHaltStopped s
  | .haltClosed => Sys2Proof.Machine.execHaltClosed s
  | .validate => Sys2Proof.Machine.execValidate s
  | .close => Sys2Proof.Machine.execClose s
  | .stop => Sys2Proof.Machine.execStop s
  | .hdr1Scan b => Sys2Proof.Machine.execHdr1Scan b s
  | .hdr2Match b => Sys2Proof.Machine.execHdr2Match b s
  | .lenLo b => Sys2Proof.Machine.execLenLo b s
  | .lenHi b => Sys2Proof.Machine.execLenHi b s
  | .tsByte b => Sys2Proof.Machine.execTsByte b s
  | .paramByte b => Sys2Proof.Machine.execParamByte b s
  | .mtypeByte b => Sys2Proof.Machine.execMtypeByte b s
  | .statusByte b => Sys2Proof.Machine.execStatusByte b s
  | .loopcByte b => Sys2Proof.Machine.execLoopcByte b s
  | .chkByte b => Sys2Proof.Machine.execChkByte b s
  | .timeoutIdle => Sys2Proof.Machine.execTimeoutIdle s
  | .timeoutSync => Sys2Proof.Machine.execTimeoutSync s
  | .timeoutLength => Sys2Proof.Machine.execTimeoutLength s
  | .timeoutPayload => Sys2Proof.Machine.execTimeoutPayload s
  | .nop => Sys2Proof.Machine.execNop s
  | .unreachable => Sys2Proof.Machine.execUnreachable s

end Sys2Proof.Machine
end

