-- ==== Sys2Proof/WellFormed.lean ====
section
/-! DEFINITION. Which operations a run from reset can select: every row of the operation map but the two
reserved ones (spec/30_encoding.md R76 (a)). Every operand byte is legal (R76 (f)). -/

namespace Sys2Proof

/-- Row 2 (RESERVED_STATE) and row 23 (UNREACHABLE) "are never produced from a reset state"
(spec/30_encoding.md R76 (a)). -/
def Instr.wellFormed : Instr → Bool
  | .reservedState => false
  | .unreachable => false
  | .reset | .haltStopped | .haltClosed | .validate | .close | .stop => true
  | .hdr1Scan _ | .hdr2Match _ | .lenLo _ | .lenHi _ | .tsByte _ | .paramByte _ => true
  | .mtypeByte _ | .statusByte _ | .loopcByte _ | .chkByte _ => true
  | .timeoutIdle | .timeoutSync | .timeoutLength | .timeoutPayload | .nop => true

end Sys2Proof
end

