-- ==== Sys2Proof/Decode.lean ====
section
/-! DEFINITION. The operation map of spec/30_encoding.md R74: the 23 rows of match and mask, the first-match decoder
over the 11-bit select word, the decoder over an instruction's bytes, and the encoder. -/

namespace Sys2Proof

/-- One row of the operation map: a select word fits when `(select & mask) = match`. -/
structure Row where
  /-- the "match" column -/
  pattern : SelectWord
  /-- the "mask" column -/
  mask : SelectWord
  /-- the operation, given the operand byte `b` -/
  op : Byte → Instr

/-- "`(select & mask) = match`" (spec/30_encoding.md R74). -/
def Row.fits (r : Row) (sel : SelectWord) : Bool := sel &&& r.mask == r.pattern

/-- The rows in the order of spec/30_encoding.md R74, which is the priority (spec/60_exceptions.md R214). -/
def operationMap : List Row :=
  [ ⟨0x010, 0x010, fun _ => .reset⟩,
    ⟨0x700, 0x700, fun _ => .reservedState⟩,
    ⟨0x500, 0x700, fun _ => .haltStopped⟩,
    ⟨0x600, 0x700, fun _ => .haltClosed⟩,
    ⟨0x400, 0x700, fun _ => .validate⟩,
    ⟨0x008, 0x008, fun _ => .close⟩,
    ⟨0x004, 0x004, fun _ => .stop⟩,
    ⟨0x001, 0x701, .hdr1Scan⟩,
    ⟨0x101, 0x701, .hdr2Match⟩,
    ⟨0x201, 0x7E1, .lenLo⟩,
    ⟨0x221, 0x7E1, .lenHi⟩,
    ⟨0x301, 0x7E1, .tsByte⟩,
    ⟨0x321, 0x7E1, .paramByte⟩,
    ⟨0x341, 0x7E1, .mtypeByte⟩,
    ⟨0x361, 0x7E1, .statusByte⟩,
    ⟨0x381, 0x7E1, .loopcByte⟩,
    ⟨0x3A1, 0x7E1, .chkByte⟩,
    ⟨0x002, 0x703, fun _ => .timeoutIdle⟩,
    ⟨0x102, 0x703, fun _ => .timeoutSync⟩,
    ⟨0x202, 0x703, fun _ => .timeoutLength⟩,
    ⟨0x302, 0x703, fun _ => .timeoutPayload⟩,
    ⟨0x000, 0x003, fun _ => .nop⟩,
    ⟨0x000, 0x000, fun _ => .unreachable⟩ ]

/-- The operation of the first row among `rows` that the select word fits. The operation map's last row fits
every word, so the empty list is never met from it. -/
def firstFit : List Row → SelectWord → Byte → Instr
  | [], _, _ => .unreachable
  | r :: rows, sel, b => if r.fits sel then r.op b else firstFit rows sel b

/-- The step's operation: "The step performs the operation of the first row below whose mask and match fit"
(spec/30_encoding.md R74); `b` is `in_data`. -/
def decodeSelect (sel : SelectWord) (b : Byte) : Instr := firstFit operationMap sel b

/-- Why bytes are no instruction. -/
inductive DecodeError where
  /-- fewer than the three bytes of an instruction's image -/
  | tooShort
  /-- a bit of the image above the 11 bits of the select word is set -/
  | selectTooWide
  deriving DecidableEq, Repr

/-- The select word held in two bytes, the less significant first; the upper five bits are dropped. -/
def selectOfBytes (lo hi : Byte) : SelectWord := BitVec.setWidth 11 (hi ++ lo : Half)

/-- Decode an instruction's image: the select word as two bytes, the less significant first, and then `in_data`.
The byte image is the model's own (DESIGN CHOICE, safe: log entry 10): the hardware forms the select word in every
step and stores it nowhere. Answers the instruction and the bytes after it. -/
def decodeImage : List Byte → Except DecodeError (Instr × List Byte)
  | lo :: hi :: b :: rest =>
    if hi &&& 0xF8 = 0 then .ok (decodeSelect (selectOfBytes lo hi) b, rest) else .error .selectTooWide
  | _ => .error .tooShort

/-- A select word that selects the operation: the row's "match" column, with every bit that the mask leaves free 0.
The last row's word must miss every row before it, so it is LENGTH with `fsel` = 2 and a byte offered
(spec/30_encoding.md R76 (a)). -/
def Instr.selectWord : Instr → SelectWord
  | .reset => 0x010
  | .reservedState => 0x700
  | .haltStopped => 0x500
  | .haltClosed => 0x600
  | .validate => 0x400
  | .close => 0x008
  | .stop => 0x004
  | .hdr1Scan _ => 0x001
  | .hdr2Match _ => 0x101
  | .lenLo _ => 0x201
  | .lenHi _ => 0x221
  | .tsByte _ => 0x301
  | .paramByte _ => 0x321
  | .mtypeByte _ => 0x341
  | .statusByte _ => 0x361
  | .loopcByte _ => 0x381
  | .chkByte _ => 0x3A1
  | .timeoutIdle => 0x002
  | .timeoutSync => 0x102
  | .timeoutLength => 0x202
  | .timeoutPayload => 0x302
  | .nop => 0x000
  | .unreachable => 0x241

/-- The image of a select word and a data byte. -/
def imageOf (sel : SelectWord) (b : Byte) : List Byte :=
  [BitVec.setWidth 8 sel, BitVec.setWidth 8 (sel >>> 8), b]

/-- The encoder: the image of the operation's select word and of its operand (0 where it has none). -/
def encode (i : Instr) : List Byte := imageOf i.selectWord (i.operand.getD 0)

/-- The instruction the decoder reads from an instruction whose bits are `w`, bit 0 the least significant bit of
the select word; bits 23 to 16 are `in_data`. Bits at `nbits` and above count as 0. -/
def decodeTableWord (nbits w : Nat) : Option Instr :=
  let v := w % 2 ^ nbits
  if v < 2 ^ 24 then
    match decodeImage [BitVec.ofNat 8 v, BitVec.ofNat 8 (v / 2 ^ 8), BitVec.ofNat 8 (v / 2 ^ 16)] with
    | .ok (i, _) => some i
    | .error _ => none
  else none

end Sys2Proof
end

