-- ==== Sys2Proof/Machine/Fetch.lean ====
section
/-! DEFINITION. Sampling the inputs and forming the step's operation (spec/00_scope.md R9, spec/30_encoding.md R74),
and the outputs that every step drives (spec/10_state.md R21). -/

namespace Sys2Proof.Machine

/-- The input vector of the step about to be taken: the next one listed, and where none is listed the environment's
free choice (spec/10_state.md R22; log entry 1). -/
def currentInputs (s : State) : Inputs :=
  match s.inputs with
  | i :: _ => i
  | [] => Config.freeInputs s.draws

/-- The state once that input vector has been sampled. -/
def takeInputs (s : State) : State :=
  match s.inputs with
  | _ :: rest => { s with inputs := rest }
  | [] => { s with draws := s.draws + 1 }

/-- The select word of the step (spec/30_encoding.md R74). -/
def currentSelect (s : State) : SelectWord :=
  selectWordOf s.st (fsel s.st s.off s.len) (currentInputs s)

/-- The bytes of the step's instruction in the layout of `decodeImage`: the select word and `in_data`. -/
def fetchImage (s : State) : List Byte := imageOf (currentSelect s) (currentInputs s).inData

/-- The step's operation (spec/30_encoding.md R74). -/
def fetch (s : State) : Instr := decodeSelect (currentSelect s) (currentInputs s).inData

/-- `in_ready`: "1 iff `rst = 0`, `src_closed = 0`, `stop = 0` and `st` is IDLE, SYNC, LENGTH or PAYLOAD"
(spec/10_state.md R21). -/
def inReady (s : State) : Bool :=
  let i := currentInputs s
  !i.rst && !i.srcClosed && !i.stop && isReceiving s.st

/-- The inputs sampled, `st_out` and `in_ready` driven; the operation then decides the rest. -/
def beginStep (s : State) : State :=
  { takeInputs s with out := { stOut := s.st, inReady := inReady s, consumed := false, outcome := none } }

/-- An `off` and a `len` at which `fsel` in LENGTH is `f`, for f = 0 and 1; for another f, a pair for which
spec/10_state.md R33 has no row. -/
def placeLength (f : BitVec 3) (s : State) : State :=
  if f = 0 then { s with off := 0 } else if f = 1 then { s with off := 1 } else { s with off := 2 }

/-- An `off` and a `len` at which `fsel` in PAYLOAD is `f`, for f up to 5; for another f, a pair for which
spec/10_state.md R33 has no row. -/
def placePayload (f : BitVec 3) (s : State) : State :=
  if f = 0 then { s with off := 0, len := 12 }
  else if f = 1 then { s with off := 8, len := 16 }
  else if f = 2 then { s with off := 8, len := 12 }
  else if f = 3 then { s with off := 9, len := 12 }
  else if f = 4 then { s with off := 10, len := 12 }
  else if f = 5 then { s with off := 11, len := 12 }
  else { s with off := 12, len := 12 }

/-- The state `s` placed so that the next step forms the select word `sel` and the operand `b`: `st` from bits 10:8, `off`
and `len` so that `fsel` is bits 7:5, and the five input bits with `b` as the next input vector. Where `st` alone fixes
`fsel` (every state but LENGTH and PAYLOAD) no row looks at those bits (log entry 12). -/
def placeSelect (sel : SelectWord) (b : Byte) (s : State) : State :=
  let st := stOfCode (BitVec.extractLsb' 8 3 sel)
  let f := BitVec.extractLsb' 5 3 sel
  let i : Inputs :=
    { rst := sel.getLsbD 4, srcClosed := sel.getLsbD 3, stop := sel.getLsbD 2, inTimeout := sel.getLsbD 1,
      inValid := sel.getLsbD 0, inData := b }
  let s := { s with st := st, inputs := i :: s.inputs }
  match st with
  | .length => placeLength f s
  | .payload => placePayload f s
  | .idle | .sync | .validate | .stopped | .closed | .reserved => s

end Sys2Proof.Machine
end

