-- ==== Sys2Proof/Machine/Step.lean ====
section
/-! DEFINITION. One step of the machine, `Step(S, I) -> (S', consumed, outcome)` of spec/00_scope.md R9. -/

namespace Sys2Proof.Machine

/-- One operation per step, selected from the state and the inputs; "that operation's rule alone defines S', consumed
and outcome" (spec/00_scope.md R9). -/
def step (s : State) : Host.Outcome State Fault Refusal := exec (fetch s) (beginStep s)

/-- `s` with the instruction whose bits are `w` placed where `step` forms its next one (Machine/Fetch.lean,
`placeSelect`). -/
def State.withFetchWord (s : State) (nbits w : Nat) : State :=
  let v := w % 2 ^ nbits
  placeSelect (BitVec.ofNat 11 v) (BitVec.ofNat 8 (v / 2 ^ 16)) s

end Sys2Proof.Machine
end

