-- ==== Sys2Proof/Machine/Frame.lean ====
section
/-! DEFINITION. The frame format (spec/30_encoding.md R70 to R73) as the reference encoder `Encode` (R78), a reference
function and no hardware (spec/00_scope.md R4 (a)), and the stimulus tokens of R80. -/

namespace Sys2Proof.Machine

/-- The 8 bytes of a timestamp in wire order, byte i being bits `8i+7 : 8i` (spec/30_encoding.md R72). -/
def timestampBytes (ts : Dword) : List Byte := (List.range 8).map (tsLane ts)

/-- The 4 bytes of a parameter in wire order (spec/30_encoding.md R72). -/
def wordBytes (p : Word) : List Byte := (List.range 4).map fun j => BitVec.extractLsb' (8 * j) 8 p

/-- The bytes of the parameters, in index order. -/
def parameterBytes : List Word → List Byte
  | [] => []
  | p :: ps => wordBytes p ++ parameterBytes ps

/-- `L = 12 + 4*N` (spec/30_encoding.md R71). -/
def frameLength (r : Record) : Half := BitVec.ofNat 16 (12 + 4 * r.params.length)

/-- The checksum byte of a record's frame (spec/43_validate.md R170). -/
def recordChecksum (r : Record) : Byte :=
  checksum (frameLength r) r.mtype r.stat r.loopc (timestampBytes r.ts) (parameterBytes r.params)

/-- The bytes before the checksum byte. -/
def frameFront (r : Record) : List Byte :=
  [Config.hdr1, Config.hdr2, BitVec.setWidth 8 (frameLength r), BitVec.setWidth 8 (frameLength r >>> 8)]
    ++ timestampBytes r.ts ++ parameterBytes r.params ++ [r.mtype, r.stat, r.loopc]

/-- `Encode(r)` (spec/30_encoding.md R78); no frame where N > PARAM_CAP ("size-overflow"). -/
def encodeFrame (r : Record) : Option (List Byte) :=
  if r.params.length ≤ Config.paramCap then some (frameFront r ++ [recordChecksum r]) else none

/-! ### Stimulus tokens (spec/30_encoding.md R80) -/

/-- `-`: every input 0. -/
def idleToken : Inputs :=
  { rst := false, srcClosed := false, stop := false, inTimeout := false, inValid := false, inData := 0 }

/-- `xx`: a byte offered, every other input 0. -/
def byteToken (b : Byte) : Inputs := { idleToken with inValid := true, inData := b }

/-- `T`. -/
def timeoutToken : Inputs := { idleToken with inTimeout := true }

/-- `T+xx`. -/
def timeoutByteToken (b : Byte) : Inputs := { byteToken b with inTimeout := true }

/-- `S`. -/
def stopToken : Inputs := { idleToken with stop := true }

/-- `S+xx`. -/
def stopByteToken (b : Byte) : Inputs := { byteToken b with stop := true }

/-- `C`. -/
def closeToken : Inputs := { idleToken with srcClosed := true }

/-- `C+xx`. -/
def closeByteToken (b : Byte) : Inputs := { byteToken b with srcClosed := true }

/-- `R`. -/
def resetToken : Inputs := { idleToken with rst := true }

/-- `FRAME(...)`: the frame's bytes, one byte token each, then one `-` for the VALIDATE step. -/
def frameTokens (r : Record) : Option (List Inputs) :=
  (encodeFrame r).map fun f => f.map byteToken ++ [idleToken]

/-- `FRAME!(..., chk=xx)`: the same with the checksum byte replaced. -/
def frameTokensWith (r : Record) (chk : Byte) : Option (List Inputs) :=
  (encodeFrame r).map fun _ => (frameFront r ++ [chk]).map byteToken ++ [idleToken]

end Sys2Proof.Machine
end

