-- ==== Sys2Proof/Machine/Port.lean ====
section
/-! DEFINITION. The output ports of spec/10_state.md R21: the codes and fields of the outcome port
(spec/60_exceptions.md R211, R212) as functions of the step's outcome, and `st_out`. Every field that the step's kind does
not carry is 0. -/

namespace Sys2Proof.Machine

/-- `out_kind`, the outcome code of spec/60_exceptions.md R211; 0 (NONE) where no outcome is emitted. -/
def outKind : Option FrameOutcome → BitVec 3
  | none => 0
  | some (.record _) => 1
  | some .headerMismatch => 2
  | some (.checksumMismatch ..) => 3
  | some .shortRead => 4
  | some (.malformedLength _) => 5
  | some .sourceClosed => 6

/-- `out_valid`: 1 iff an outcome is emitted. -/
def outValid (o : Option FrameOutcome) : Bool := o.isSome

/-- The record of a RECORD step. -/
def recordOf : Option FrameOutcome → Option Record
  | some (.record r) => some r
  | none | some .headerMismatch | some (.checksumMismatch ..) | some .shortRead | some (.malformedLength _)
  | some .sourceClosed => none

/-- `out_ts`. -/
def outTs (o : Option FrameOutcome) : Dword := (recordOf o).elim 0 (·.ts)

/-- `out_nparam`, 14 bits. -/
def outNparam (o : Option FrameOutcome) : BitVec 14 := (recordOf o).elim 0 (fun r => BitVec.ofNat 14 r.params.length)

/-- `out_params[k]`, for k below PARAM_CAP; 0 for k >= N. -/
def outParamWord (o : Option FrameOutcome) (k : Nat) : Word := (recordOf o).elim 0 (fun r => r.params.getD k 0)

/-- `out_mtype`. -/
def outMtype (o : Option FrameOutcome) : Byte := (recordOf o).elim 0 (·.mtype)

/-- `out_stat`. -/
def outStat (o : Option FrameOutcome) : Byte := (recordOf o).elim 0 (·.stat)

/-- `out_loopc`. -/
def outLoopc (o : Option FrameOutcome) : Byte := (recordOf o).elim 0 (·.loopc)

/-- `out_len`: CHECKSUM_MISMATCH and MALFORMED_LENGTH. -/
def outLen : Option FrameOutcome → Half
  | some (.checksumMismatch len _ _) => len
  | some (.malformedLength len) => len
  | none | some (.record _) | some .headerMismatch | some .shortRead | some .sourceClosed => 0

/-- `out_computed`: CHECKSUM_MISMATCH. -/
def outComputed : Option FrameOutcome → Byte
  | some (.checksumMismatch _ computed _) => computed
  | none | some (.record _) | some .headerMismatch | some .shortRead | some (.malformedLength _)
  | some .sourceClosed => 0

/-- `out_received`: CHECKSUM_MISMATCH. -/
def outReceived : Option FrameOutcome → Byte
  | some (.checksumMismatch _ _ received) => received
  | none | some (.record _) | some .headerMismatch | some .shortRead | some (.malformedLength _)
  | some .sourceClosed => 0

/-- `st_out` as its 3-bit code, in the step just taken. -/
def stOut (s : State) : BitVec 3 := stCode s.out.stOut

end Sys2Proof.Machine
end

