-- ==== Sys2Proof/Safety.lean ====
section
/-! DEFINITION. The terms claims are stated in: the input conditions of the operation map's rows, the invariant of
spec/10_state.md R35, runs with the outputs of each step, and the environment's duties of spec/70_reset_and_hazards.md
R243 and R244. -/

namespace Sys2Proof.Machine

/-! ### Input conditions (the "conditions" of the operation map's rows) -/

/-- `rst`, `src_closed` and `stop` all 0. -/
def undisturbed (i : Inputs) : Prop := i.rst = false ∧ i.srcClosed = false ∧ i.stop = false

/-- Undisturbed, with the byte `b` offered (`in_timeout` is free: spec/30_encoding.md R76 (b)). -/
def offersByte (i : Inputs) (b : Byte) : Prop := undisturbed i ∧ i.inValid = true ∧ i.inData = b

/-- Undisturbed, with a timeout and no byte. -/
def timesOut (i : Inputs) : Prop := undisturbed i ∧ i.inValid = false ∧ i.inTimeout = true

/-- Undisturbed, with neither a byte nor a timeout. -/
def isQuiet (i : Inputs) : Prop := undisturbed i ∧ i.inValid = false ∧ i.inTimeout = false

/-- The operation that the priority list of spec/60_exceptions.md R214 and the `st`, `fsel` and conditions columns of
the operation map (spec/30_encoding.md R74) give, written without the map's masks. -/
def priorityChoice (st : St) (f : BitVec 3) (i : Inputs) : Instr :=
  if i.rst then .reset
  else match st with
  | .reserved => .reservedState
  | .stopped => .haltStopped
  | .closed => .haltClosed
  | .validate => .validate
  | .idle =>
    if i.srcClosed then .close else if i.stop then .stop else if i.inValid then .hdr1Scan i.inData
    else if i.inTimeout then .timeoutIdle else .nop
  | .sync =>
    if i.srcClosed then .close else if i.stop then .stop else if i.inValid then .hdr2Match i.inData
    else if i.inTimeout then .timeoutSync else .nop
  | .length =>
    if i.srcClosed then .close else if i.stop then .stop
    else if i.inValid then
      (if f.toNat = 0 then .lenLo i.inData else if f.toNat = 1 then .lenHi i.inData else .unreachable)
    else if i.inTimeout then .timeoutLength else .nop
  | .payload =>
    if i.srcClosed then .close else if i.stop then .stop
    else if i.inValid then
      (if f.toNat = 0 then .tsByte i.inData else if f.toNat = 1 then .paramByte i.inData
       else if f.toNat = 2 then .mtypeByte i.inData else if f.toNat = 3 then .statusByte i.inData
       else if f.toNat = 4 then .loopcByte i.inData else if f.toNat = 5 then .chkByte i.inData else .unreachable)
    else if i.inTimeout then .timeoutPayload else .nop

/-! ### The invariant of spec/10_state.md R35 -/

/-- The byte of the current frame at body offset `i`, as the registers hold it (spec/30_encoding.md R72). -/
def bodyByte (s : State) (i : Nat) : Byte :=
  if i < 8 then tsLane s.ts i
  else if i + 4 < s.len.toNat then readPB s (i - 8)
  else if i + 4 = s.len.toNat then s.mtype
  else if i + 3 = s.len.toNat then s.stat
  else if i + 2 = s.len.toNat then s.loopc
  else s.rxchk

/-- `(len[7:0] + the body bytes 0 .. n-1) mod 256`. -/
def bodySum (s : State) : Nat → Byte
  | 0 => BitVec.setWidth 8 s.len
  | n + 1 => bodySum s n + bodyByte s n

/-- spec/10_state.md R35: (a) `st` is not 7; (b) in LENGTH `off` is 0 or 1; (c) in PAYLOAD `len` is well-formed,
`off < len` and `sum` covers the body bytes taken; (d) in VALIDATE `off = len - 1`, `len` is well-formed and `sum` covers
every body byte but the checksum; (e) `off` stays below 65532; and PB keeps its canonical form. -/
structure FrameInv (s : State) : Prop where
  notReserved : s.st ≠ .reserved
  lengthOff : s.st = .length → s.off = 0 ∨ s.off = 1
  payload : s.st = .payload →
    lengthOk s.len = true ∧ s.off.toNat < s.len.toNat ∧ s.sum = bodySum s s.off.toNat
  validate : s.st = .validate →
    lengthOk s.len = true ∧ s.off.toNat + 1 = s.len.toNat ∧ s.sum = bodySum s (s.len.toNat - 1)
  offBound : s.off.toNat < 65532
  buffer : pbWf s.pb = true

/-! ### Runs -/

/-- `n` steps, with the outputs of each, the earliest first; none where a step gives no next state. -/
def trace : Nat → State → Option (List Outputs × State)
  | 0, s => some ([], s)
  | n + 1, s =>
    match step s with
    | .next t => (trace n t).map fun p => (t.out :: p.1, p.2)
    | .fault _ => none
    | .refused _ => none

/-- The outcomes of a run, in order. -/
def emitted (outs : List Outputs) : List FrameOutcome := outs.filterMap (·.outcome)

/-- The number of bytes a run consumed. -/
def consumedCount (outs : List Outputs) : Nat := (outs.filter (·.consumed)).length

/-- The state after a step that leaves the block's registers and PB as they are and only samples the inputs and
drives the outputs `out`. -/
def onlyOutputs (s : State) (out : Outputs) : State := { takeInputs s with out := out }

/-- HEADER_MISMATCH, MALFORMED_LENGTH, SHORT_READ and CHECKSUM_MISMATCH: the frame-level errors
(spec/60_exceptions.md R215). -/
def isFrameError : FrameOutcome → Bool
  | .headerMismatch | .checksumMismatch .. | .shortRead | .malformedLength _ => true
  | .record _ | .sourceClosed => false

/-- A step in which the source offers nothing and nothing else happens, whatever is on `in_data`. -/
def quietToken (d : Byte) : Inputs := { idleToken with inData := d }

/-- Bytes offered one per step in order, with quiet steps before each: `gaps` gives what is on `in_data` in the quiet
steps before the first byte, the second byte, ...; none once `gaps` has run out. -/
def offered : List Byte → List (List Byte) → List Inputs
  | [], _ => []
  | b :: bs, [] => byteToken b :: offered bs []
  | b :: bs, g :: gs => g.map quietToken ++ byteToken b :: offered bs gs

/-! ### Duties of the environment (spec/70_reset_and_hazards.md) -/

/-- R243: "the Byte Source must keep it offered (the same `in_data` with `in_valid = 1`) until a step where
`in_ready = 1`". `now` is the step's input vector, `next` the following one, `ready` the step's `in_ready`. -/
def HoldsOfferedByte (now next : Inputs) (ready : Bool) : Prop :=
  now.inValid = true → ready = false → next.inValid = true ∧ next.inData = now.inData

/-- R244: "the owner must hold `stop = 1` until `st_out` shows STOPPED (or CLOSED)". `shown` and `shownNext` are `st_out`
in the step and in the following one. DESIGN CHOICE, safe (log entry 14): the duty binds the steps before the one that
shows it, and neither a reset step nor the step after one. -/
def HoldsStop (now next : Inputs) (shown shownNext : St) : Prop :=
  now.stop = true → now.rst = false → next.rst = false → isTerminal shown = false → isTerminal shownNext = false →
    next.stop = true

/-- R244: "the source must hold `src_closed = 1` from the moment it closes until reset". DESIGN CHOICE, safe (log entry
14): the spec does not say what holds when `src_closed` is still 1 in the reset step itself; the model lets any reset step
end the duty, so neither that step nor the step after it is bound, and a source may be open again right after the reset. -/
def HoldsClose (now next : Inputs) : Prop :=
  now.srcClosed = true → now.rst = false → next.rst = false → next.srcClosed = true

end Sys2Proof.Machine
end

