-- ==== Sys2Proof/Certificates/Slice0/Obligations.lean ====
section
/-! DEFINITION. The statements about the Frame synchronizer, each with the rule of spec/ it formalises. -/

open Sys2Proof Sys2Proof.Machine

/-! ### Decoding and dispatch -/

/-- Words written out from spec/30_encoding.md R74's table, free bits set and clear: one for each family. -/
def Obligations.WrittenWordsDecode : Prop :=
  decodeImage [0x10, 0x00, 0x55] = .ok (.reset, []) ∧
  decodeImage [0xFF, 0x07, 0x55] = .ok (.reset, []) ∧
  decodeImage [0x01, 0x00, 0xEB] = .ok (.hdr1Scan 0xEB, []) ∧
  decodeImage [0x03, 0x01, 0x90] = .ok (.hdr2Match 0x90, []) ∧
  decodeImage [0x21, 0x02, 0x0C] = .ok (.lenHi 0x0C, []) ∧
  decodeImage [0x21, 0x03, 0x3F] = .ok (.paramByte 0x3F, []) ∧
  decodeImage [0xA1, 0x03, 0x10] = .ok (.chkByte 0x10, []) ∧
  decodeImage [0x0F, 0x04, 0x00] = .ok (.validate, []) ∧
  decodeImage [0x02, 0x03, 0x00] = .ok (.timeoutPayload, []) ∧
  decodeImage [0x0D, 0x00, 0xEB] = .ok (.close, []) ∧
  decodeImage [0x00, 0x02, 0x77] = .ok (.nop, [])

/-- Every instruction, with its operand at every value, is what its encoding decodes to, whatever bytes follow; and every
select word agrees with its instruction's own encoding on each bit that the instruction's row fixes. The byte image is the
model's choice (log entry 10). -/
def Obligations.EncodeThenDecode : Prop :=
  (∀ (i : Instr) (rest : List Byte), decodeImage (encode i ++ rest) = .ok (i, rest)) ∧
  (∀ (sel : SelectWord) (b : Byte), ∃ row ∈ operationMap,
    row.op b = decodeSelect sel b ∧ row.fits sel = true ∧ row.fits (decodeSelect sel b).selectWord = true)

/-- The image decoder answers exactly where three bytes stand and the five bits above the select word are 0; then the
instruction is the first-match choice for the select word and the operand. The byte image is the model's choice (log
entry 10). -/
def Obligations.ImageDecodesExactly : Prop :=
  ∀ bytes : List Byte,
    (∀ i rest, decodeImage bytes = .ok (i, rest) ↔
      ∃ lo hi b, bytes = lo :: hi :: b :: rest ∧ hi.toNat < 8 ∧
        i = decodeSelect (BitVec.ofNat 11 (lo.toNat + 256 * hi.toNat)) b)

/-- spec/60_exceptions.md R214, spec/30_encoding.md R74: the first-match list of masks gives the priority order. -/
def Obligations.DispatchFollowsPriority : Prop :=
  ∀ (st : St) (f : BitVec 3) (i : Inputs), decodeSelect (selectWordOf st f i) i.inData = priorityChoice st f i

/-- spec/10_state.md R33: the table of `fsel`, row by row, and "The values 6 and 7 are never produced" (R35's states). -/
def Obligations.FieldSelectorTable : Prop :=
  (∀ len : Half, fsel .length 0 len = 0 ∧ fsel .length 1 len = 1) ∧
  (∀ off len : Half, 12 ≤ len.toNat →
    (off.toNat < 8 → fsel .payload off len = 0) ∧
    (8 ≤ off.toNat → off.toNat < (len - 4).toNat → fsel .payload off len = 1) ∧
    (off = len - 4 → fsel .payload off len = 2) ∧
    (off = len - 3 → fsel .payload off len = 3) ∧
    (off = len - 2 → fsel .payload off len = 4) ∧
    (off = len - 1 → fsel .payload off len = 5)) ∧
  (∀ (st : St) (off len : Half), st ≠ .length → st ≠ .payload → fsel st off len = 0) ∧
  (∀ s : State, FrameInv s → (fsel s.st s.off s.len).toNat ≤ 5 ∧ (s.st = .length → (fsel s.st s.off s.len).toNat ≤ 1))

/-- spec/00_scope.md R9: the step is the decoded operation run after the inputs are sampled and `st_out` and `in_ready`
are driven; nothing else changes around it. The input list, the draw count, `out` and the image are the model's own (log
entries 1, 3, 10). -/
def Obligations.StepRunsDecoded : Prop :=
  ∀ (s : State) (i : Instr) (rest : List Byte), decodeImage (fetchImage s) = .ok (i, rest) →
    step s = exec i
      { s with
        inputs := s.inputs.tail
        draws := if s.inputs = [] then s.draws + 1 else s.draws
        out := { stOut := s.st, inReady := inReady s, consumed := false, outcome := none } }

/-- spec/30_encoding.md R75, with `in_ready` and `st_out` as spec/10_state.md R21 has them. -/
def Obligations.ConsumedIffValidAndReady : Prop :=
  (∀ s t : State, step s = .next t →
    t.out.consumed = ((currentInputs s).inValid && t.out.inReady) ∧
    t.out.consumed = (fetch s).consumes ∧
    (t.out.inReady = true ↔ undisturbed (currentInputs s) ∧
      (s.st = .idle ∨ s.st = .sync ∨ s.st = .length ∨ s.st = .payload)) ∧
    t.out.stOut = s.st) ∧
  (∀ s : State, (fetch s).consumes = true → (currentInputs s).inValid = true ∧ inReady s = true) ∧
  (∀ s : State, FrameInv s → (currentInputs s).inValid = true → inReady s = true → (fetch s).consumes = true)

/-! ### The invariant of spec/10_state.md R35 -/

/-- Every step keeps R35. -/
def Obligations.StepKeepsFrameState : Prop :=
  ∀ s t : State, FrameInv s → step s = .next t → FrameInv t

/-- R35 holds after reset (with the model's choice of PB listing nothing, log entry 4). -/
def Obligations.ResetHasFrameState : Prop := FrameInv State.reset

/-- Where R35 holds no step faults or refuses: the reserved rows are never selected (spec/30_encoding.md R76 (a)). -/
def Obligations.FrameStateNeverFaults : Prop :=
  ∀ s : State, FrameInv s → (fetch s).wellFormed = true ∧ ∃ t, step s = .next t

/-- Every step keeps PB's canonical form (the model's form, log entry 4), from every state that has it. -/
def Obligations.StepKeepsBufferForm : Prop :=
  ∀ s t : State, pbWf s.pb = true → step s = .next t → pbWf t.pb = true

/-- spec/20_memory.md R51: "Exactly one operation writes it: PARAM_BYTE", reset included among those that do not. -/
def Obligations.OnlyParamByteWritesBuffer : Prop :=
  ∀ s t : State, step s = .next t → (∀ b, fetch s ≠ .paramByte b) → ∀ a, readPB t a = readPB s a

/-! ### Header matcher -/

/-- spec/40_sync.md R100. -/
def Obligations.HeaderScan : Prop :=
  (∀ (b : Byte) (s : State), exec (.hdr1Scan b) s =
    .next { s with
      st := if b = 0xEB then .sync else .idle
      out := { s.out with consumed := true, outcome := none } }) ∧
  (∀ (b : Byte) (s : State), s.st = .idle → offersByte (currentInputs s) b → fetch s = .hdr1Scan b) ∧
  (∀ (noise : List Byte) (rest : List Inputs) (s : State), s.st = .idle → (∀ b ∈ noise, b ≠ 0xEB) →
    s.inputs = noise.map byteToken ++ rest →
    ∃ outs t, trace noise.length s = some (outs, t) ∧ emitted outs = [] ∧ consumedCount outs = noise.length ∧
      t = { s with inputs := rest, out := t.out })

/-- spec/40_sync.md R101. -/
def Obligations.SecondHeaderByte : Prop :=
  (∀ s : State, exec (.hdr2Match 0x90) s =
    .next { s with st := .length, off := 0, out := { s.out with consumed := true, outcome := none } }) ∧
  (∀ (b : Byte) (s : State), b ≠ 0x90 → exec (.hdr2Match b) s =
    .next { s with st := .idle, out := { s.out with consumed := true, outcome := some .headerMismatch } }) ∧
  (∀ (b : Byte) (s : State), s.st = .sync → offersByte (currentInputs s) b → fetch s = .hdr2Match b) ∧
  (∀ (rest : List Inputs) (s : State), s.st = .idle →
    s.inputs = byteToken 0xEB :: byteToken 0xEB :: byteToken 0x90 :: rest →
    ∃ outs t, trace 3 s = some (outs, t) ∧ emitted outs = [.headerMismatch] ∧ t.st = .idle ∧ t.inputs = rest)

/-- spec/40_sync.md R102, the resynchronization law. -/
def Obligations.ResynchronizesAfterMismatch : Prop :=
  ∀ (noise : List Byte) (x : Byte) (rest : List Inputs) (s : State), s.st = .idle → (∀ b ∈ noise, b ≠ 0xEB) →
    x ≠ 0x90 → s.inputs = noise.map byteToken ++ byteToken 0xEB :: byteToken x :: rest →
    ∃ outs t u, trace (noise.length + 1) s = some (outs, t) ∧ emitted outs = [] ∧ t.st = .sync ∧
      step t = .next u ∧ fetch t = .hdr2Match x ∧ u.out.outcome = some .headerMismatch ∧ u.out.consumed = true ∧
      u.st = .idle ∧ u.inputs = rest

/-! ### Length field -/

/-- spec/41_length.md R120. -/
def Obligations.LengthLowByte : Prop :=
  (∀ (b : Byte) (s : State), ∃ t, exec (.lenLo b) s = .next t ∧
    t.len.toNat % 256 = b.toNat ∧ t.len.toNat / 256 = s.len.toNat / 256 ∧
    t = { s with len := t.len, off := 1, out := { s.out with consumed := true, outcome := none } }) ∧
  (∀ (b : Byte) (s : State), s.st = .length → s.off = 0 → offersByte (currentInputs s) b → fetch s = .lenLo b)

/-- spec/41_length.md R121. -/
def Obligations.WellFormedLengths : Prop :=
  ∀ len : Half,
    (lengthOk len = true ↔ len.toNat % 4 = 0 ∧ 12 ≤ len.toNat) ∧
    (lengthOk len = true ↔ ∃ n, n ≤ 16380 ∧ len.toNat = 12 + 4 * n) ∧
    (lengthOk len = true → paramCount len = len.toNat / 4 - 3 ∧ 3 ≤ len.toNat / 4 ∧ paramCount len ≤ 16380)

/-- spec/41_length.md R122. -/
def Obligations.LengthHighByte : Prop :=
  (∀ (b : Byte) (s : State), ∃ t, exec (.lenHi b) s = .next t ∧
    t.len.toNat = 256 * b.toNat + s.len.toNat % 256 ∧
    ((t.len.toNat % 4 = 0 ∧ 12 ≤ t.len.toNat) →
      t = { s with
        len := t.len, st := .payload, off := 0, sum := BitVec.ofNat 8 t.len.toNat
        out := { s.out with consumed := true, outcome := none } }) ∧
    (¬ (t.len.toNat % 4 = 0 ∧ 12 ≤ t.len.toNat) →
      t = { s with
        len := t.len, st := .idle
        out := { s.out with consumed := true, outcome := some (.malformedLength t.len) } })) ∧
  (∀ (b : Byte) (s : State), s.st = .length → s.off = 1 → offersByte (currentInputs s) b → fetch s = .lenHi b)

/-! ### Body -/

/-- spec/42_payload.md R140. -/
def Obligations.TimestampByte : Prop :=
  (∀ (b : Byte) (s : State), s.off.toNat < 8 → ∃ t, exec (.tsByte b) s = .next t ∧
    (∀ k, k < 64 → t.ts.getLsbD k = if k / 8 = s.off.toNat then b.getLsbD (k % 8) else s.ts.getLsbD k) ∧
    t = { s with
      ts := t.ts, sum := s.sum + b, off := s.off + 1, out := { s.out with consumed := true, outcome := none } }) ∧
  (∀ (b : Byte) (s : State), s.st = .payload → lengthOk s.len = true → s.off.toNat < 8 →
    offersByte (currentInputs s) b → fetch s = .tsByte b)

/-- spec/42_payload.md R141, with the frame of PB said byte by byte. -/
def Obligations.ParameterByte : Prop :=
  (∀ (b : Byte) (s : State), 8 ≤ s.off.toNat → s.off.toNat - 8 < 65520 → ∃ t, exec (.paramByte b) s = .next t ∧
    readPB t (s.off.toNat - 8) = b ∧
    (∀ a, a ≠ s.off.toNat - 8 → readPB t a = readPB s a) ∧
    t = { s with
      pb := t.pb, sum := s.sum + b, off := s.off + 1, out := { s.out with consumed := true, outcome := none } }) ∧
  (∀ (b : Byte) (s : State), s.st = .payload → lengthOk s.len = true → 8 ≤ s.off.toNat →
    s.off.toNat + 4 < s.len.toNat → offersByte (currentInputs s) b →
    fetch s = .paramByte b ∧ s.off.toNat - 8 < 4 * paramCount s.len ∧ 4 * paramCount s.len ≤ 65520)

/-- The model's stop on an operand no run meets (log entry 6): TS_BYTE at a lane `ts` does not have, PARAM_BYTE at an
address PB does not have. -/
def Obligations.OutOfRangeBodyOffsetStops : Prop :=
  (∀ (b : Byte) (s : State), 8 ≤ s.off.toNat → exec (.tsByte b) s = .fault .timestampLane) ∧
  (∀ (b : Byte) (s : State), (s.off.toNat < 8 ∨ 65520 ≤ s.off.toNat - 8) →
    exec (.paramByte b) s = .fault .bufferAddress) ∧
  (∀ s : State, FrameInv s → (∀ b, fetch s = .tsByte b → s.off.toNat < 8) ∧
    (∀ b, fetch s = .paramByte b → 8 ≤ s.off.toNat ∧ s.off.toNat - 8 < 65520))

/-- spec/42_payload.md R142, R143, R144. -/
def Obligations.TrailerBytes : Prop :=
  (∀ (b : Byte) (s : State),
    exec (.mtypeByte b) s = .next { s with
      mtype := b, sum := s.sum + b, off := s.off + 1, out := { s.out with consumed := true, outcome := none } } ∧
    exec (.statusByte b) s = .next { s with
      stat := b, sum := s.sum + b, off := s.off + 1, out := { s.out with consumed := true, outcome := none } } ∧
    exec (.loopcByte b) s = .next { s with
      loopc := b, sum := s.sum + b, off := s.off + 1, out := { s.out with consumed := true, outcome := none } }) ∧
  (∀ (b : Byte) (s : State), s.st = .payload → lengthOk s.len = true → offersByte (currentInputs s) b →
    (s.off = s.len - 4 → fetch s = .mtypeByte b) ∧
    (s.off = s.len - 3 → fetch s = .statusByte b) ∧
    (s.off = s.len - 2 → fetch s = .loopcByte b))

/-- spec/42_payload.md R145. -/
def Obligations.ChecksumByte : Prop :=
  (∀ (b : Byte) (s : State), exec (.chkByte b) s =
    .next { s with rxchk := b, st := .validate, out := { s.out with consumed := true, outcome := none } }) ∧
  (∀ (b : Byte) (s : State), s.st = .payload → lengthOk s.len = true → s.off = s.len - 1 →
    offersByte (currentInputs s) b → fetch s = .chkByte b)

/-- spec/10_state.md R27, spec/20_memory.md R52: parameter k is the little-endian word of four bytes of PB. -/
def Obligations.ParameterWordsLittleEndian : Prop :=
  ∀ (s : State) (k : Nat), paramWord s k =
    (readPB s (4 * k + 3) ++ readPB s (4 * k + 2) ++ readPB s (4 * k + 1) ++ readPB s (4 * k) : BitVec 32)

/-! ### Validation -/

/-- spec/43_validate.md R173. -/
def Obligations.ValidateOutcome : Prop :=
  (∀ s : State, s.sum = s.rxchk → ∃ ps, exec .validate s =
      .next { s with
        st := .idle
        out := { s.out with
          consumed := false
          outcome := some (.record { ts := s.ts, params := ps, mtype := s.mtype, stat := s.stat, loopc := s.loopc }) } } ∧
    (lengthOk s.len = true → ps.length = s.len.toNat / 4 - 3) ∧
    (∀ k, k < ps.length → ps[k]? = some (BitVec.ofNat 32 (memRead s (4 * k) 4)))) ∧
  (∀ s : State, s.sum ≠ s.rxchk → exec .validate s =
      .next { s with
        st := .idle
        out := { s.out with consumed := false, outcome := some (.checksumMismatch s.len s.sum s.rxchk) } }) ∧
  (∀ s : State, s.st = .validate → (currentInputs s).rst = false → fetch s = .validate ∧ inReady s = false)

/-- spec/43_validate.md R171: (a) the high length byte does not count, (b) the order of the additions does not matter,
(c) at VALIDATE `sum` is the checksum of the bytes received. -/
def Obligations.RunningSumIsChecksum : Prop :=
  (∀ (len len' : Half) (m st lc : Byte) (tb pby : List Byte), len.toNat % 256 = len'.toNat % 256 →
    checksum len m st lc tb pby = checksum len' m st lc tb pby) ∧
  (∀ (len : Half) (m st lc : Byte) (tb pby : List Byte),
    checksum len m st lc tb pby = checksum len m st lc pby tb) ∧
  (∀ s : State, FrameInv s → s.st = .validate →
    s.sum = checksum s.len s.mtype s.stat s.loopc ((List.range 8).map (tsLane s.ts))
      ((List.range (4 * (s.len.toNat / 4 - 3))).map (readPB s)))

/-- spec/43_validate.md R172: a RECORD comes only from a VALIDATE step whose comparison succeeds, with the frame's fields;
in every other step the record ports carry no frame data. -/
def Obligations.RecordOnlyWhenValid : Prop :=
  (∀ (s t : State) (r : Record), step s = .next t → t.out.outcome = some (.record r) →
    s.st = .validate ∧ fetch s = .validate ∧ s.sum = s.rxchk ∧ t.st = .idle ∧ t.out.consumed = false ∧
    r.ts = s.ts ∧ r.mtype = s.mtype ∧ r.stat = s.stat ∧ r.loopc = s.loopc ∧
    (∀ k, k < r.params.length → r.params[k]? = some (paramWord s k))) ∧
  (∀ s t : State, step s = .next t → outKind t.out.outcome ≠ 1 →
    outTs t.out.outcome = 0 ∧ outNparam t.out.outcome = 0 ∧ (∀ k, outParamWord t.out.outcome k = 0) ∧
    outMtype t.out.outcome = 0 ∧ outStat t.out.outcome = 0 ∧ outLoopc t.out.outcome = 0)

/-- spec/20_memory.md R57 (d): a frame's RECORD or CHECKSUM_MISMATCH comes out in the step after its checksum byte is
consumed, and that step consumes nothing. -/
def Obligations.OutcomeFollowsChecksumByte : Prop :=
  ∀ (s t : State) (b : Byte), step s = .next t → fetch s = .chkByte b → (currentInputs t).rst = false →
    ∃ u, step t = .next u ∧ u.out.consumed = false ∧ u.st = .idle ∧
      ((s.sum = b ∧ ∃ r, u.out.outcome = some (.record r)) ∨
       (s.sum ≠ b ∧ u.out.outcome = some (.checksumMismatch s.len s.sum b)))

/-! ### Source events, stop, close, idle and terminal steps -/

/-- spec/44_control.md R190, R191. -/
def Obligations.TimeoutBeforeLengthRetries : Prop :=
  (∀ s : State, s.st = .idle →
    exec .timeoutIdle s = .next { s with out := { s.out with consumed := false, outcome := none } } ∧
    (timesOut (currentInputs s) → fetch s = .timeoutIdle)) ∧
  (∀ s : State, s.st = .sync →
    exec .timeoutSync s = .next { s with out := { s.out with consumed := false, outcome := none } } ∧
    (timesOut (currentInputs s) → fetch s = .timeoutSync)) ∧
  (∀ (n : Nat) (rest : List Inputs) (s : State), (s.st = .idle ∨ s.st = .sync) →
    s.inputs = List.replicate n timeoutToken ++ rest →
    ∃ outs t, trace n s = some (outs, t) ∧ emitted outs = [] ∧ consumedCount outs = 0 ∧
      t = { s with inputs := rest, out := t.out })

/-- spec/44_control.md R192, R193. -/
def Obligations.TimeoutInFrameIsShortRead : Prop :=
  (∀ s : State,
    exec .timeoutLength s =
      .next { s with st := .idle, out := { s.out with consumed := false, outcome := some .shortRead } } ∧
    exec .timeoutPayload s =
      .next { s with st := .idle, out := { s.out with consumed := false, outcome := some .shortRead } }) ∧
  (∀ s : State, timesOut (currentInputs s) →
    (s.st = .length → fetch s = .timeoutLength) ∧ (s.st = .payload → fetch s = .timeoutPayload))

/-- spec/44_control.md R194. -/
def Obligations.StopEndsDecoder : Prop :=
  (∀ s : State, exec .stop s =
    .next { s with st := .stopped, out := { s.out with consumed := false, outcome := none } }) ∧
  (∀ s : State, (s.st = .idle ∨ s.st = .sync ∨ s.st = .length ∨ s.st = .payload) →
    (currentInputs s).rst = false → (currentInputs s).srcClosed = false → (currentInputs s).stop = true →
    fetch s = .stop ∧ inReady s = false)

/-- spec/44_control.md R195. -/
def Obligations.CloseEndsDecoder : Prop :=
  (∀ s : State, exec .close s =
    .next { s with st := .closed, out := { s.out with consumed := false, outcome := some .sourceClosed } }) ∧
  (∀ s : State, (s.st = .idle ∨ s.st = .sync ∨ s.st = .length ∨ s.st = .payload) →
    (currentInputs s).rst = false → (currentInputs s).srcClosed = true → fetch s = .close ∧ inReady s = false)

/-- spec/44_control.md R196. -/
def Obligations.QuietStepChangesNothing : Prop :=
  (∀ s : State, exec .nop s = .next { s with out := { s.out with consumed := false, outcome := none } }) ∧
  (∀ s : State, (s.st = .idle ∨ s.st = .sync ∨ s.st = .length ∨ s.st = .payload) → isQuiet (currentInputs s) →
    fetch s = .nop) ∧
  (∀ (ds : List Byte) (rest : List Inputs) (s : State),
    (s.st = .idle ∨ s.st = .sync ∨ s.st = .length ∨ s.st = .payload) → s.inputs = ds.map quietToken ++ rest →
    ∃ outs t, trace ds.length s = some (outs, t) ∧ emitted outs = [] ∧ consumedCount outs = 0 ∧
      t = { s with inputs := rest, out := t.out })

/-- spec/44_control.md R197: in a terminal state only `rst` has an effect. -/
def Obligations.TerminalStatesHalt : Prop :=
  (∀ s : State,
    exec .haltStopped s = .next { s with out := { s.out with consumed := false, outcome := none } } ∧
    exec .haltClosed s = .next { s with out := { s.out with consumed := false, outcome := none } }) ∧
  (∀ s : State, (s.st = .stopped ∨ s.st = .closed) → (currentInputs s).rst = false →
    fetch s = (if s.st = .stopped then .haltStopped else .haltClosed) ∧
    step s = .next (onlyOutputs s { stOut := s.st, inReady := false, consumed := false, outcome := none })) ∧
  (∀ s t : State, (s.st = .stopped ∨ s.st = .closed) → step s = .next t → t.st ≠ s.st → fetch s = .reset)

/-- spec/44_control.md R198, the short-read scenario. -/
def Obligations.ShortReadScenario : Prop :=
  ∀ (b : Byte) (rest : List Inputs) (s : State), s.st = .idle →
    s.inputs = [0xEB, 0x90, 0x0C, 0x00].map byteToken ++ timeoutToken :: byteToken b :: rest →
    ∃ outs t u, trace 4 s = some (outs, t) ∧ emitted outs = [] ∧ t.st = .payload ∧ step t = .next u ∧
      u.out.outcome = some .shortRead ∧ u.st = .idle ∧ fetch u = .hdr1Scan b

/-- spec/44_control.md R199. -/
def Obligations.FrameErrorsNeverEnd : Prop :=
  (∀ s t : State, isTerminal s.st = false → step s = .next t → isTerminal t.st = true →
    fetch s = .stop ∨ fetch s = .close) ∧
  (∀ (s t : State) (o : FrameOutcome), step s = .next t → t.out.outcome = some o → isFrameError o = true →
    t.st = .idle) ∧
  (∀ (is rest : List Inputs) (s : State), FrameInv s → isTerminal s.st = false → (∀ i ∈ is, undisturbed i) →
    s.inputs = is ++ rest → ∃ outs t, trace is.length s = some (outs, t) ∧ isTerminal t.st = false ∧ FrameInv t)

/-- spec/70_reset_and_hazards.md R244: a level held for two steps ends the decoder, VALIDATE included. -/
def Obligations.HeldLevelEndsDecoder : Prop :=
  ∀ (s : State) (i j : Inputs) (rest : List Inputs), FrameInv s → s.inputs = i :: j :: rest →
    i.rst = false → j.rst = false → ((i.stop = true ∧ j.stop = true) ∨ (i.srcClosed = true ∧ j.srcClosed = true)) →
    ∃ outs t, trace 2 s = some (outs, t) ∧ isTerminal t.st = true

/-! ### Reset, errors, outcomes -/

/-- spec/70_reset_and_hazards.md R240, spec/10_state.md R31. -/
def Obligations.ResetStep : Prop :=
  (∀ s : State, ∃ t, exec .reset s = .next t ∧
    t.st = .idle ∧ t.off = 0 ∧ t.len = 0 ∧ t.ts = 0 ∧ t.mtype = 0 ∧ t.stat = 0 ∧ t.loopc = 0 ∧ t.sum = 0 ∧
    t.rxchk = 0 ∧ t.pb = s.pb ∧ (∀ a, readPB t a = readPB s a) ∧ t.inputs = s.inputs ∧ t.draws = s.draws ∧
    t.out = { s.out with consumed := false, outcome := none }) ∧
  (∀ s t : State, exec .reset s = .next t → exec .reset t = .next t) ∧
  (∀ s : State, (currentInputs s).rst = true → fetch s = .reset ∧ inReady s = false) ∧
  (State.reset.st = .idle ∧ State.reset.off = 0 ∧ State.reset.len = 0 ∧ State.reset.ts = 0 ∧
    State.reset.mtype = 0 ∧ State.reset.stat = 0 ∧ State.reset.loopc = 0 ∧ State.reset.sum = 0 ∧
    State.reset.rxchk = 0)

/-- spec/30_encoding.md R76 (a): "A model treats both rows as `fault(unreachable)`". -/
def Obligations.ReservedRowsFault : Prop :=
  (∀ s : State, exec .reservedState s = .fault .unreachable ∧ exec .unreachable s = .fault .unreachable) ∧
  (∀ s : State, s.st = .reserved → (currentInputs s).rst = false →
    fetch s = .reservedState ∧ step s = .fault .unreachable) ∧
  (∀ (f : BitVec 3) (i : Inputs), undisturbed i → i.inValid = true →
    (2 ≤ f.toNat → decodeSelect (selectWordOf .length f i) i.inData = .unreachable) ∧
    (6 ≤ f.toNat → decodeSelect (selectWordOf .payload f i) i.inData = .unreachable))

/-- spec/60_exceptions.md R211, R212: the codes, and each port field in each kind of step; the
ports are functions of the outcome held in `out` (log entry 11). -/
def Obligations.OutcomePortFields : Prop :=
  (outKind none = 0 ∧ outKind (some .headerMismatch) = 2 ∧ outKind (some .shortRead) = 4 ∧
    outKind (some .sourceClosed) = 6 ∧ (∀ r, outKind (some (.record r)) = 1) ∧
    (∀ l c k, outKind (some (.checksumMismatch l c k)) = 3) ∧ (∀ l, outKind (some (.malformedLength l)) = 5)) ∧
  (∀ o : Option FrameOutcome, (outValid o = true ↔ outKind o ≠ 0) ∧ outKind o ≠ 7) ∧
  (∀ r : Record, r.params.length ≤ 16380 →
    outTs (some (.record r)) = r.ts ∧ (outNparam (some (.record r))).toNat = r.params.length ∧
    (∀ k, k < r.params.length → r.params[k]? = some (outParamWord (some (.record r)) k)) ∧
    (∀ k, r.params.length ≤ k → outParamWord (some (.record r)) k = 0) ∧
    outMtype (some (.record r)) = r.mtype ∧ outStat (some (.record r)) = r.stat ∧
    outLoopc (some (.record r)) = r.loopc ∧ outLen (some (.record r)) = 0 ∧
    outComputed (some (.record r)) = 0 ∧ outReceived (some (.record r)) = 0) ∧
  (∀ l c k, outLen (some (.checksumMismatch l c k)) = l ∧ outComputed (some (.checksumMismatch l c k)) = c ∧
    outReceived (some (.checksumMismatch l c k)) = k) ∧
  (∀ l, outLen (some (.malformedLength l)) = l ∧ outComputed (some (.malformedLength l)) = 0 ∧
    outReceived (some (.malformedLength l)) = 0) ∧
  (∀ o : Option FrameOutcome, outKind o ≠ 1 → outTs o = 0 ∧ outNparam o = 0 ∧ (∀ k, outParamWord o k = 0) ∧
    outMtype o = 0 ∧ outStat o = 0 ∧ outLoopc o = 0) ∧
  (∀ o : Option FrameOutcome, outKind o ≠ 3 → outKind o ≠ 5 →
    outLen o = 0 ∧ outComputed o = 0 ∧ outReceived o = 0)

/-- spec/60_exceptions.md R213: "The port encoding of rules R211 and R212 is a faithful encoding of this type." -/
def Obligations.OutcomePortFaithful : Prop :=
  ∀ o o' : Option FrameOutcome,
    (∀ r, o = some (.record r) → r.params.length ≤ 16380) →
    (∀ r, o' = some (.record r) → r.params.length ≤ 16380) →
    outKind o = outKind o' → outTs o = outTs o' → outNparam o = outNparam o' →
    (∀ k, k < 16380 → outParamWord o k = outParamWord o' k) → outMtype o = outMtype o' → outStat o = outStat o' →
    outLoopc o = outLoopc o' → outLen o = outLen o' → outComputed o = outComputed o' →
    outReceived o = outReceived o' → o = o'

/-- spec/60_exceptions.md R215: an error's step changes `st`, and LEN_HI's also `len`; nothing else of the block. -/
def Obligations.ErrorEntryOnlyReturnsToIdle : Prop :=
  ∀ (s t : State) (o : FrameOutcome), step s = .next t → t.out.outcome = some o → isFrameError o = true →
    t = { onlyOutputs s t.out with st := .idle, len := t.len } ∧
    ((∀ l, o ≠ .malformedLength l) → t.len = s.len) ∧
    (∀ l, o = .malformedLength l → t.len = l ∧ ∃ b, fetch s = .lenHi b)

/-! ### Whole frames -/

/-- spec/30_encoding.md R70, R71, R78: the layout of an encoded frame, and the records that have none. -/
def Obligations.EncodedFrameLayout : Prop :=
  (∀ r : Record, encodeFrame r = none ↔ 16380 < r.params.length) ∧
  (∀ (r : Record) (f : List Byte), encodeFrame r = some f →
    f.length = 16 + 4 * r.params.length ∧
    f[0]? = some 0xEB ∧ f[1]? = some 0x90 ∧
    f[2]? = some (BitVec.ofNat 8 (12 + 4 * r.params.length)) ∧
    f[3]? = some (BitVec.ofNat 8 ((12 + 4 * r.params.length) / 256)) ∧
    (∀ i, i < 8 → f[4 + i]? = some (BitVec.extractLsb' (8 * i) 8 r.ts)) ∧
    (∀ (k j : Nat) (p : Word), r.params[k]? = some p → j < 4 →
      f[12 + 4 * k + j]? = some (BitVec.extractLsb' (8 * j) 8 p)) ∧
    f[12 + 4 * r.params.length]? = some r.mtype ∧
    f[13 + 4 * r.params.length]? = some r.stat ∧
    f[14 + 4 * r.params.length]? = some r.loopc ∧
    f[15 + 4 * r.params.length]? =
      some (BitVec.ofNat 8 (12 + 4 * r.params.length + byteSum ((f.drop 4).take (11 + 4 * r.params.length)))))

/-- spec/30_encoding.md R79: decoding what `Encode` builds gives the record back, for every record that has a frame,
with quiet steps anywhere and from every state in IDLE. -/
def Obligations.EncodedFrameRoundTrips : Prop :=
  ∀ (r : Record) (f : List Byte) (gaps : List (List Byte)) (v : Inputs) (rest : List Inputs) (s : State),
    encodeFrame r = some f → s.st = .idle → v.rst = false → s.inputs = offered f gaps ++ v :: rest →
    ∃ outs t u, trace (offered f gaps).length s = some (outs, t) ∧ emitted outs = [] ∧
      consumedCount outs = f.length ∧ t.st = .validate ∧ step t = .next u ∧
      u.out.outcome = some (.record r) ∧ u.out.consumed = false ∧ u.st = .idle ∧ u.inputs = rest ∧
      (gaps = [] → (offered f gaps).length + 1 = (12 + 4 * r.params.length) + 5)

/-- spec/40_sync.md R103, the noise-recovery law. -/
def Obligations.NoiseRecovery : Prop :=
  ∀ (r : Record) (f before after : List Byte) (gaps gaps' : List (List Byte)) (v : Inputs) (rest : List Inputs)
    (s : State),
    encodeFrame r = some f → (∀ b ∈ before, b ≠ 0xEB) → (∀ b ∈ after, b ≠ 0xEB) → s.st = .idle → v.rst = false →
    s.inputs = offered (before ++ f) gaps ++ v :: (offered after gaps' ++ rest) →
    ∃ outs t, trace ((offered (before ++ f) gaps).length + 1 + (offered after gaps').length) s = some (outs, t) ∧
      emitted outs = [.record r] ∧ consumedCount outs = before.length + f.length + after.length ∧
      t.st = .idle ∧ t.inputs = rest

/-- spec/10_state.md R35 (c), spec/42_payload.md R147: the body bytes consumed so far stand in the registers, bit for bit,
at the places spec/30_encoding.md R72 gives, whatever quiet steps come between, and `sum` covers them. -/
def Obligations.BodyHoldsReceivedBytes : Prop :=
  ∀ (bs : List Byte) (gaps : List (List Byte)) (rest : List Inputs) (s : State),
    s.st = .payload → s.off = 0 → lengthOk s.len = true → s.sum = BitVec.setWidth 8 s.len →
    bs.length < s.len.toNat → s.inputs = offered bs gaps ++ rest →
    ∃ outs t, trace (offered bs gaps).length s = some (outs, t) ∧ emitted outs = [] ∧ consumedCount outs = bs.length ∧
      t.st = .payload ∧ t.off.toNat = bs.length ∧ t.len = s.len ∧ t.inputs = rest ∧
      t.sum = BitVec.ofNat 8 (s.len.toNat + byteSum bs) ∧
      (∀ (i : Nat) (b : Byte), bs[i]? = some b →
        (i < 8 → BitVec.extractLsb' (8 * i) 8 t.ts = b) ∧
        (8 ≤ i → i + 4 < s.len.toNat → readPB t (i - 8) = b) ∧
        (i + 4 = s.len.toNat → t.mtype = b) ∧ (i + 3 = s.len.toNat → t.stat = b) ∧
        (i + 2 = s.len.toNat → t.loopc = b))

/-- spec/30_encoding.md R77: a frame is cut by its own length field alone. A well-formed length takes exactly that many more
bytes, whatever they are, and gives the frame's one outcome from them; any other length takes no byte of the would-be body. -/
def Obligations.LengthFieldCutsStream : Prop :=
  (∀ (lo hi : Byte) (body : List Byte) (gaps : List (List Byte)) (v : Inputs) (rest : List Inputs) (s : State),
    s.st = .idle → v.rst = false → body.length = 256 * hi.toNat + lo.toNat → body.length % 4 = 0 → 12 ≤ body.length →
    s.inputs = offered ([0xEB, 0x90, lo, hi] ++ body) gaps ++ v :: rest →
    ∃ outs t, trace ((offered ([0xEB, 0x90, lo, hi] ++ body) gaps).length + 1) s = some (outs, t) ∧
      consumedCount outs = 4 + body.length ∧ t.st = .idle ∧ t.inputs = rest ∧
      (body[body.length - 1]? = some (BitVec.ofNat 8 (lo.toNat + byteSum (body.take (body.length - 1)))) →
        ∃ r, emitted outs = [.record r] ∧ r.params.length = body.length / 4 - 3 ∧
          (∀ i, i < 8 → body[i]? = some (BitVec.extractLsb' (8 * i) 8 r.ts)) ∧
          (∀ (k j : Nat) (p : Word), r.params[k]? = some p → j < 4 →
            body[8 + 4 * k + j]? = some (BitVec.extractLsb' (8 * j) 8 p)) ∧
          body[body.length - 4]? = some r.mtype ∧ body[body.length - 3]? = some r.stat ∧
          body[body.length - 2]? = some r.loopc) ∧
      (∀ x, body[body.length - 1]? = some x →
        x ≠ BitVec.ofNat 8 (lo.toNat + byteSum (body.take (body.length - 1))) →
        emitted outs = [.checksumMismatch (hi ++ lo : Half)
          (BitVec.ofNat 8 (lo.toNat + byteSum (body.take (body.length - 1)))) x])) ∧
  (∀ (lo hi : Byte) (rest : List Inputs) (s : State),
    s.st = .idle → ¬ ((256 * hi.toNat + lo.toNat) % 4 = 0 ∧ 12 ≤ 256 * hi.toNat + lo.toNat) →
    s.inputs = [0xEB, 0x90, lo, hi].map byteToken ++ rest →
    ∃ outs t, trace 4 s = some (outs, t) ∧ emitted outs = [.malformedLength (hi ++ lo : Half)] ∧ t.st = .idle ∧
      t.inputs = rest)

/-- spec/43_validate.md R174: one changed byte after the length field is always detected, and only a changed one. -/
def Obligations.ChecksumSensitivity : Prop :=
  ∀ (r : Record) (f : List Byte) (j : Nat) (x y : Byte) (v : Inputs) (rest : List Inputs) (s : State),
    encodeFrame r = some f → 4 ≤ j → f[j]? = some x → s.st = .idle → v.rst = false →
    s.inputs = (f.set j y).map byteToken ++ v :: rest →
    ∃ outs t, trace (f.length + 1) s = some (outs, t) ∧ t.st = .idle ∧ t.inputs = rest ∧
      (y = x → emitted outs = [.record r]) ∧
      (y ≠ x → ∃ c k, c ≠ k ∧ emitted outs = [.checksumMismatch (frameLength r) c k])

/-- spec/43_validate.md R175: two changed bytes whose changes add to 0 mod 256 are not detected: a RECORD comes out, and it is
not the one that was sent. -/
def Obligations.CancellingChangesPass : Prop :=
  ∀ (r : Record) (f : List Byte) (i j : Nat) (x x' y y' : Byte) (v : Inputs) (rest : List Inputs) (s : State),
    encodeFrame r = some f → 4 ≤ i → i < j → j + 1 < f.length → f[i]? = some x → f[j]? = some y → x ≠ x' →
    x' + y' = x + y → s.st = .idle → v.rst = false →
    s.inputs = ((f.set i x').set j y').map byteToken ++ v :: rest →
    ∃ outs t r', trace (f.length + 1) s = some (outs, t) ∧ emitted outs = [.record r'] ∧ r' ≠ r ∧
      r'.params.length = r.params.length

/-- spec/70_reset_and_hazards.md R241: from IDLE, no output of any step depends on the other registers or on PB. -/
def Obligations.LaunchRegistersUnseen : Prop :=
  ∀ (n : Nat) (s s' : State), s.st = .idle → s'.st = .idle → s.inputs = s'.inputs → s.draws = s'.draws →
    ∃ outs t t', trace n s = some (outs, t) ∧ trace n s' = some (outs, t') ∧ t.st = t'.st
end

