-- ==== Sys2Proof/Laws/Buffer.lean ====
section
/-! SUPPORT. The laws of the parameter buffer: a read after a write, every other address left alone, and the canonical
form kept by every write. -/

namespace Sys2Proof.Machine

theorem pbLookup_pbInsert_same (m : Memory) (x : Nat) (v : Byte) : pbLookup (pbInsert m x v) x = some v := by
  induction m with
  | nil => simp [pbInsert, pbLookup]
  | cons c m ih =>
    obtain ⟨a, b⟩ := c
    simp only [pbInsert]
    split_ifs with h1 h2
    · simp [pbLookup]
    · simp [pbLookup]
    · simp [pbLookup, h2, ih]

theorem pbLookup_pbInsert_ne (m : Memory) {x y : Nat} (v : Byte) (h : y ≠ x) :
    pbLookup (pbInsert m x v) y = pbLookup m y := by
  induction m with
  | nil => simp [pbInsert, pbLookup, h]
  | cons c m ih =>
    obtain ⟨a, b⟩ := c
    simp only [pbInsert]
    split_ifs with h1 h2
    · simp [pbLookup, h]
    · subst h2; simp [pbLookup, h]
    · simp [pbLookup, ih]

theorem pbWfFrom_weaken {lo lo' : Nat} (h : lo' ≤ lo) : ∀ {m : Memory}, pbWfFrom lo m = true → pbWfFrom lo' m = true
  | [], _ => rfl
  | (a, _) :: m, hm => by
    simp only [pbWfFrom, Bool.and_eq_true, decide_eq_true_eq] at hm ⊢
    exact ⟨⟨by omega, hm.1.2⟩, hm.2⟩

theorem pbWfFrom_pbInsert {x : Nat} {v : Byte} (hx : x < Config.pbSize) :
    ∀ {m : Memory} {lo : Nat}, lo ≤ x → pbWfFrom lo m = true → pbWfFrom lo (pbInsert m x v) = true
  | [], lo, hlo, _ => by simp [pbInsert, pbWfFrom, hlo, hx]
  | (a, b) :: m, lo, hlo, hm => by
    simp only [pbWfFrom, Bool.and_eq_true, decide_eq_true_eq] at hm
    simp only [pbInsert]
    split_ifs with h1 h2
    · simp only [pbWfFrom, Bool.and_eq_true, decide_eq_true_eq]
      exact ⟨⟨hlo, hx⟩, ⟨by omega, hm.1.2⟩, hm.2⟩
    · subst h2
      simp only [pbWfFrom, Bool.and_eq_true, decide_eq_true_eq]
      exact hm
    · simp only [pbWfFrom, Bool.and_eq_true, decide_eq_true_eq]
      exact ⟨hm.1, pbWfFrom_pbInsert hx (by omega) hm.2⟩

/-- A write to an address of PB keeps the canonical form. -/
theorem pbWf_pbInsert {m : Memory} {x : Nat} (v : Byte) (hx : x < Config.pbSize) (hm : pbWf m = true) :
    pbWf (pbInsert m x v) = true := pbWfFrom_pbInsert hx (Nat.zero_le _) hm

/-- Reset's PB, with nothing listed, has the canonical form. -/
theorem pbWf_reset : pbWf State.reset.pb = true := rfl

/-- Reading PB looks at PB alone. -/
theorem readPB_congr {s t : State} (h : s.pb = t.pb) (a : Nat) : readPB s a = readPB t a := by
  simp [readPB, h]

/-- All a write to PB can do. -/
theorem memWrite_next {a : Nat} {v : Byte} {s t : State} (h : memWrite a v s = .next t) :
    a < Config.pbSize ∧ t = withPB (pbInsert s.pb a v) s := by
  unfold memWrite at h
  split at h
  · cases h; exact ⟨‹_›, rfl⟩
  · cases h

theorem memWrite_of_lt {a : Nat} (v : Byte) (s : State) (h : a < Config.pbSize) :
    memWrite a v s = .next (withPB (pbInsert s.pb a v) s) := if_pos h

theorem readPB_pbInsert_same (s : State) (a : Nat) (v : Byte) :
    readPB (withPB (pbInsert s.pb a v) s) a = v := by
  simp [readPB, withPB, pbLookup_pbInsert_same]

theorem readPB_pbInsert_ne (s : State) {a y : Nat} (v : Byte) (h : y ≠ a) :
    readPB (withPB (pbInsert s.pb a v) s) y = readPB s y := by
  simp [readPB, withPB, pbLookup_pbInsert_ne _ _ h]

end Sys2Proof.Machine
end

