-- ==== Sys2Proof/Laws/State.lean ====
section
/-! SUPPORT. What each register update of Machine/Ops.lean and Machine/Fetch.lean does to each field of State, one lemma
per field. -/

namespace Sys2Proof.Machine

/-! ### finish -/

@[simp] theorem finish_st (c : Bool) (o : Option FrameOutcome) (s : State) : (finish c o s).st = s.st := rfl
@[simp] theorem finish_off (c : Bool) (o : Option FrameOutcome) (s : State) : (finish c o s).off = s.off := rfl
@[simp] theorem finish_len (c : Bool) (o : Option FrameOutcome) (s : State) : (finish c o s).len = s.len := rfl
@[simp] theorem finish_ts (c : Bool) (o : Option FrameOutcome) (s : State) : (finish c o s).ts = s.ts := rfl
@[simp] theorem finish_pb (c : Bool) (o : Option FrameOutcome) (s : State) : (finish c o s).pb = s.pb := rfl
@[simp] theorem finish_mtype (c : Bool) (o : Option FrameOutcome) (s : State) : (finish c o s).mtype = s.mtype := rfl
@[simp] theorem finish_stat (c : Bool) (o : Option FrameOutcome) (s : State) : (finish c o s).stat = s.stat := rfl
@[simp] theorem finish_loopc (c : Bool) (o : Option FrameOutcome) (s : State) : (finish c o s).loopc = s.loopc := rfl
@[simp] theorem finish_sum (c : Bool) (o : Option FrameOutcome) (s : State) : (finish c o s).sum = s.sum := rfl
@[simp] theorem finish_rxchk (c : Bool) (o : Option FrameOutcome) (s : State) : (finish c o s).rxchk = s.rxchk := rfl
@[simp] theorem finish_out (c : Bool) (o : Option FrameOutcome) (s : State) : (finish c o s).out = { s.out with consumed := c, outcome := o } := rfl
@[simp] theorem finish_inputs (c : Bool) (o : Option FrameOutcome) (s : State) : (finish c o s).inputs = s.inputs := rfl
@[simp] theorem finish_draws (c : Bool) (o : Option FrameOutcome) (s : State) : (finish c o s).draws = s.draws := rfl

/-! ### goTo -/

@[simp] theorem goTo_st (x : St) (s : State) : (goTo x s).st = x := rfl
@[simp] theorem goTo_off (x : St) (s : State) : (goTo x s).off = s.off := rfl
@[simp] theorem goTo_len (x : St) (s : State) : (goTo x s).len = s.len := rfl
@[simp] theorem goTo_ts (x : St) (s : State) : (goTo x s).ts = s.ts := rfl
@[simp] theorem goTo_pb (x : St) (s : State) : (goTo x s).pb = s.pb := rfl
@[simp] theorem goTo_mtype (x : St) (s : State) : (goTo x s).mtype = s.mtype := rfl
@[simp] theorem goTo_stat (x : St) (s : State) : (goTo x s).stat = s.stat := rfl
@[simp] theorem goTo_loopc (x : St) (s : State) : (goTo x s).loopc = s.loopc := rfl
@[simp] theorem goTo_sum (x : St) (s : State) : (goTo x s).sum = s.sum := rfl
@[simp] theorem goTo_rxchk (x : St) (s : State) : (goTo x s).rxchk = s.rxchk := rfl
@[simp] theorem goTo_out (x : St) (s : State) : (goTo x s).out = s.out := rfl
@[simp] theorem goTo_inputs (x : St) (s : State) : (goTo x s).inputs = s.inputs := rfl
@[simp] theorem goTo_draws (x : St) (s : State) : (goTo x s).draws = s.draws := rfl

/-! ### raiseError -/

@[simp] theorem raiseError_st (c : Bool) (o : FrameOutcome) (s : State) : (raiseError c o s).st = .idle := rfl
@[simp] theorem raiseError_off (c : Bool) (o : FrameOutcome) (s : State) : (raiseError c o s).off = s.off := rfl
@[simp] theorem raiseError_len (c : Bool) (o : FrameOutcome) (s : State) : (raiseError c o s).len = s.len := rfl
@[simp] theorem raiseError_ts (c : Bool) (o : FrameOutcome) (s : State) : (raiseError c o s).ts = s.ts := rfl
@[simp] theorem raiseError_pb (c : Bool) (o : FrameOutcome) (s : State) : (raiseError c o s).pb = s.pb := rfl
@[simp] theorem raiseError_mtype (c : Bool) (o : FrameOutcome) (s : State) : (raiseError c o s).mtype = s.mtype := rfl
@[simp] theorem raiseError_stat (c : Bool) (o : FrameOutcome) (s : State) : (raiseError c o s).stat = s.stat := rfl
@[simp] theorem raiseError_loopc (c : Bool) (o : FrameOutcome) (s : State) : (raiseError c o s).loopc = s.loopc := rfl
@[simp] theorem raiseError_sum (c : Bool) (o : FrameOutcome) (s : State) : (raiseError c o s).sum = s.sum := rfl
@[simp] theorem raiseError_rxchk (c : Bool) (o : FrameOutcome) (s : State) : (raiseError c o s).rxchk = s.rxchk := rfl
@[simp] theorem raiseError_out (c : Bool) (o : FrameOutcome) (s : State) : (raiseError c o s).out = { s.out with consumed := c, outcome := some o } := rfl
@[simp] theorem raiseError_inputs (c : Bool) (o : FrameOutcome) (s : State) : (raiseError c o s).inputs = s.inputs := rfl
@[simp] theorem raiseError_draws (c : Bool) (o : FrameOutcome) (s : State) : (raiseError c o s).draws = s.draws := rfl

/-! ### enterTerminal -/

@[simp] theorem enterTerminal_st (x : St) (o : Option FrameOutcome) (s : State) : (enterTerminal x o s).st = x := rfl
@[simp] theorem enterTerminal_off (x : St) (o : Option FrameOutcome) (s : State) : (enterTerminal x o s).off = s.off := rfl
@[simp] theorem enterTerminal_len (x : St) (o : Option FrameOutcome) (s : State) : (enterTerminal x o s).len = s.len := rfl
@[simp] theorem enterTerminal_ts (x : St) (o : Option FrameOutcome) (s : State) : (enterTerminal x o s).ts = s.ts := rfl
@[simp] theorem enterTerminal_pb (x : St) (o : Option FrameOutcome) (s : State) : (enterTerminal x o s).pb = s.pb := rfl
@[simp] theorem enterTerminal_mtype (x : St) (o : Option FrameOutcome) (s : State) : (enterTerminal x o s).mtype = s.mtype := rfl
@[simp] theorem enterTerminal_stat (x : St) (o : Option FrameOutcome) (s : State) : (enterTerminal x o s).stat = s.stat := rfl
@[simp] theorem enterTerminal_loopc (x : St) (o : Option FrameOutcome) (s : State) : (enterTerminal x o s).loopc = s.loopc := rfl
@[simp] theorem enterTerminal_sum (x : St) (o : Option FrameOutcome) (s : State) : (enterTerminal x o s).sum = s.sum := rfl
@[simp] theorem enterTerminal_rxchk (x : St) (o : Option FrameOutcome) (s : State) : (enterTerminal x o s).rxchk = s.rxchk := rfl
@[simp] theorem enterTerminal_out (x : St) (o : Option FrameOutcome) (s : State) : (enterTerminal x o s).out = { s.out with consumed := false, outcome := o } := rfl
@[simp] theorem enterTerminal_inputs (x : St) (o : Option FrameOutcome) (s : State) : (enterTerminal x o s).inputs = s.inputs := rfl
@[simp] theorem enterTerminal_draws (x : St) (o : Option FrameOutcome) (s : State) : (enterTerminal x o s).draws = s.draws := rfl

/-! ### takeBodyByte -/

@[simp] theorem takeBodyByte_st (b : Byte) (s : State) : (takeBodyByte b s).st = s.st := rfl
@[simp] theorem takeBodyByte_off (b : Byte) (s : State) : (takeBodyByte b s).off = s.off + 1 := rfl
@[simp] theorem takeBodyByte_len (b : Byte) (s : State) : (takeBodyByte b s).len = s.len := rfl
@[simp] theorem takeBodyByte_ts (b : Byte) (s : State) : (takeBodyByte b s).ts = s.ts := rfl
@[simp] theorem takeBodyByte_pb (b : Byte) (s : State) : (takeBodyByte b s).pb = s.pb := rfl
@[simp] theorem takeBodyByte_mtype (b : Byte) (s : State) : (takeBodyByte b s).mtype = s.mtype := rfl
@[simp] theorem takeBodyByte_stat (b : Byte) (s : State) : (takeBodyByte b s).stat = s.stat := rfl
@[simp] theorem takeBodyByte_loopc (b : Byte) (s : State) : (takeBodyByte b s).loopc = s.loopc := rfl
@[simp] theorem takeBodyByte_sum (b : Byte) (s : State) : (takeBodyByte b s).sum = sumAdd s.sum b := rfl
@[simp] theorem takeBodyByte_rxchk (b : Byte) (s : State) : (takeBodyByte b s).rxchk = s.rxchk := rfl
@[simp] theorem takeBodyByte_out (b : Byte) (s : State) : (takeBodyByte b s).out = { s.out with consumed := true, outcome := none } := rfl
@[simp] theorem takeBodyByte_inputs (b : Byte) (s : State) : (takeBodyByte b s).inputs = s.inputs := rfl
@[simp] theorem takeBodyByte_draws (b : Byte) (s : State) : (takeBodyByte b s).draws = s.draws := rfl

/-! ### withPB -/

@[simp] theorem withPB_st (m : Memory) (s : State) : (withPB m s).st = s.st := rfl
@[simp] theorem withPB_off (m : Memory) (s : State) : (withPB m s).off = s.off := rfl
@[simp] theorem withPB_len (m : Memory) (s : State) : (withPB m s).len = s.len := rfl
@[simp] theorem withPB_ts (m : Memory) (s : State) : (withPB m s).ts = s.ts := rfl
@[simp] theorem withPB_pb (m : Memory) (s : State) : (withPB m s).pb = m := rfl
@[simp] theorem withPB_mtype (m : Memory) (s : State) : (withPB m s).mtype = s.mtype := rfl
@[simp] theorem withPB_stat (m : Memory) (s : State) : (withPB m s).stat = s.stat := rfl
@[simp] theorem withPB_loopc (m : Memory) (s : State) : (withPB m s).loopc = s.loopc := rfl
@[simp] theorem withPB_sum (m : Memory) (s : State) : (withPB m s).sum = s.sum := rfl
@[simp] theorem withPB_rxchk (m : Memory) (s : State) : (withPB m s).rxchk = s.rxchk := rfl
@[simp] theorem withPB_out (m : Memory) (s : State) : (withPB m s).out = s.out := rfl
@[simp] theorem withPB_inputs (m : Memory) (s : State) : (withPB m s).inputs = s.inputs := rfl
@[simp] theorem withPB_draws (m : Memory) (s : State) : (withPB m s).draws = s.draws := rfl

/-! ### takeInputs and beginStep -/

@[simp] theorem takeInputs_st (s : State) : (takeInputs s).st = s.st := by
  unfold takeInputs; split <;> rfl
@[simp] theorem takeInputs_off (s : State) : (takeInputs s).off = s.off := by
  unfold takeInputs; split <;> rfl
@[simp] theorem takeInputs_len (s : State) : (takeInputs s).len = s.len := by
  unfold takeInputs; split <;> rfl
@[simp] theorem takeInputs_ts (s : State) : (takeInputs s).ts = s.ts := by
  unfold takeInputs; split <;> rfl
@[simp] theorem takeInputs_pb (s : State) : (takeInputs s).pb = s.pb := by
  unfold takeInputs; split <;> rfl
@[simp] theorem takeInputs_mtype (s : State) : (takeInputs s).mtype = s.mtype := by
  unfold takeInputs; split <;> rfl
@[simp] theorem takeInputs_stat (s : State) : (takeInputs s).stat = s.stat := by
  unfold takeInputs; split <;> rfl
@[simp] theorem takeInputs_loopc (s : State) : (takeInputs s).loopc = s.loopc := by
  unfold takeInputs; split <;> rfl
@[simp] theorem takeInputs_sum (s : State) : (takeInputs s).sum = s.sum := by
  unfold takeInputs; split <;> rfl
@[simp] theorem takeInputs_rxchk (s : State) : (takeInputs s).rxchk = s.rxchk := by
  unfold takeInputs; split <;> rfl
@[simp] theorem takeInputs_out (s : State) : (takeInputs s).out = s.out := by
  unfold takeInputs; split <;> rfl
@[simp] theorem takeInputs_inputs (s : State) : (takeInputs s).inputs = s.inputs.tail := by
  unfold takeInputs; split <;> simp_all
@[simp] theorem takeInputs_draws (s : State) :
    (takeInputs s).draws = if s.inputs = [] then s.draws + 1 else s.draws := by
  unfold takeInputs; split <;> simp_all
@[simp] theorem beginStep_st (s : State) : (beginStep s).st = s.st := takeInputs_st s
@[simp] theorem beginStep_off (s : State) : (beginStep s).off = s.off := takeInputs_off s
@[simp] theorem beginStep_len (s : State) : (beginStep s).len = s.len := takeInputs_len s
@[simp] theorem beginStep_ts (s : State) : (beginStep s).ts = s.ts := takeInputs_ts s
@[simp] theorem beginStep_pb (s : State) : (beginStep s).pb = s.pb := takeInputs_pb s
@[simp] theorem beginStep_mtype (s : State) : (beginStep s).mtype = s.mtype := takeInputs_mtype s
@[simp] theorem beginStep_stat (s : State) : (beginStep s).stat = s.stat := takeInputs_stat s
@[simp] theorem beginStep_loopc (s : State) : (beginStep s).loopc = s.loopc := takeInputs_loopc s
@[simp] theorem beginStep_sum (s : State) : (beginStep s).sum = s.sum := takeInputs_sum s
@[simp] theorem beginStep_rxchk (s : State) : (beginStep s).rxchk = s.rxchk := takeInputs_rxchk s
@[simp] theorem beginStep_out (s : State) :
    (beginStep s).out = { stOut := s.st, inReady := inReady s, consumed := false, outcome := none } := rfl
@[simp] theorem beginStep_inputs (s : State) : (beginStep s).inputs = s.inputs.tail := takeInputs_inputs s
@[simp] theorem beginStep_draws (s : State) :
    (beginStep s).draws = if s.inputs = [] then s.draws + 1 else s.draws := takeInputs_draws s

/-- The input vector sampled when one is listed. -/
theorem currentInputs_cons {s : State} {i : Inputs} {rest : List Inputs} (h : s.inputs = i :: rest) :
    currentInputs s = i := by
  unfold currentInputs; rw [h]

/-- Two states with the same fields are one state. -/
theorem State_eq {s t : State} (h1 : s.st = t.st) (h2 : s.off = t.off) (h3 : s.len = t.len) (h4 : s.ts = t.ts)
    (h5 : s.pb = t.pb) (h6 : s.mtype = t.mtype) (h7 : s.stat = t.stat) (h8 : s.loopc = t.loopc) (h9 : s.sum = t.sum)
    (h10 : s.rxchk = t.rxchk) (h11 : s.out = t.out) (h12 : s.inputs = t.inputs) (h13 : s.draws = t.draws) : s = t := by
  cases s; cases t; simp_all

end Sys2Proof.Machine
end

