-- ==== Sys2Proof/Laws/Exec.lean ====
section
/-! SUPPORT. What every operation can do: the fields no operation touches, and the states an outcome can come from. -/

namespace Sys2Proof.Machine

/-- Every operation, where it gives a next state: `in_ready` and `st_out` stay as driven, `consumed` is the map's
"consumes" column, the environment's fields stay, PB keeps its form, and PARAM_BYTE alone writes it. -/
theorem exec_frame {i : Instr} {s t : State} (h : exec i s = .next t) :
    t.out.inReady = s.out.inReady ∧ t.out.stOut = s.out.stOut ∧ t.out.consumed = i.consumes ∧
    t.inputs = s.inputs ∧ t.draws = s.draws ∧ (pbWf s.pb = true → pbWf t.pb = true) ∧
    ((∀ b, i ≠ .paramByte b) → t.pb = s.pb) := by
  cases i
  case paramByte b =>
    simp only [exec, execParamByte] at h
    split at h <;> cases h
    rename_i u hu
    obtain ⟨h1, rfl⟩ := memWrite_next hu
    simp [Instr.consumes, Instr.operand]
    exact fun h => pbWf_pbInsert _ h1 h
  all_goals
    simp only [exec, execReset, execReservedState, execHaltStopped, execHaltClosed, execValidate, execClose, execStop,
      execHdr1Scan, execHdr2Match, execLenLo, execLenHi, execTsByte, execMtypeByte, execStatusByte, execLoopcByte,
      execChkByte, execTimeoutIdle, execTimeoutSync, execTimeoutLength, execTimeoutPayload, execNop,
      execUnreachable] at h
    try split at h
    all_goals (cases h; try simp [Instr.consumes, Instr.operand])

theorem step_eq (s : State) : step s = exec (fetch s) (beginStep s) := rfl

/-- The start of a step whose input vector is listed. -/
theorem beginStep_cons {s : State} {i : Inputs} {rest : List Inputs} (h : s.inputs = i :: rest) :
    beginStep s = { s with
      inputs := rest, out := { stOut := s.st, inReady := inReady s, consumed := false, outcome := none } } := by
  apply State_eq <;> simp [h]

end Sys2Proof.Machine
end

