-- ==== Sys2Proof/Laws/Lanes.lean ====
section
/-! SUPPORT. The laws of byte lanes: a timestamp lane after a write, the two bytes of the length field, and a value put
together from its lanes. -/

namespace Sys2Proof.Machine

/-- Every bit of the timestamp after one lane is written. -/
theorem getLsbD_setTsLane (ts : Dword) (i : Nat) (b : Byte) (k : Nat) (hk : k < 64) :
    (setTsLane ts i b).getLsbD k = if k / 8 = i then b.getLsbD (k % 8) else ts.getLsbD k := by
  have hm : ∀ n, (0xFF : Byte).getLsbD n = decide (n < 8) := by
    intro n
    by_cases h : n < 8
    · interval_cases n <;> rfl
    · simp [h, BitVec.getLsbD_of_ge _ _ (by omega : 8 ≤ n)]
  simp only [setTsLane, BitVec.getLsbD_or, BitVec.getLsbD_and, BitVec.getLsbD_not, BitVec.getLsbD_shiftLeft,
    BitVec.getLsbD_setWidth, hm, hk]
  by_cases h : k / 8 = i
  · have h1 : ¬ k < 8 * i := by omega
    have h2 : k - 8 * i = k % 8 := by omega
    have h3 : k % 8 < 64 := by omega
    have h4 : k % 8 < 8 := by omega
    simp [h, h1, h2, h3, h4]
  · by_cases h1 : k < 8 * i
    · simp [h, h1]
    · have h2 : ¬ k - 8 * i < 8 := by omega
      have h3 : b.getLsbD (k - 8 * i) = false := BitVec.getLsbD_of_ge _ _ (by omega)
      simp [h, h1, h2, h3]

theorem getLsbD_tsLane (ts : Dword) (i n : Nat) : (tsLane ts i).getLsbD n = (decide (n < 8) && ts.getLsbD (8 * i + n)) := by
  simp [tsLane, BitVec.getLsbD_extractLsb']

/-- A lane after one lane is written. -/
theorem tsLane_setTsLane (ts : Dword) {i j : Nat} (b : Byte) (hj : j < 8) :
    tsLane (setTsLane ts i b) j = if j = i then b else tsLane ts j := by
  apply BitVec.eq_of_getLsbD_eq
  intro n hn
  rw [getLsbD_tsLane, getLsbD_setTsLane _ _ _ _ (by omega)]
  have h1 : (8 * j + n) / 8 = j := by omega
  have h2 : (8 * j + n) % 8 = n := by omega
  rw [h1, h2]
  split
  · simp [hn]
  · rw [getLsbD_tsLane]

/-- A timestamp is its eight lanes. -/
theorem eq_of_tsLane_eq {a b : Dword} (h : ∀ i, i < 8 → tsLane a i = tsLane b i) : a = b := by
  apply BitVec.eq_of_getLsbD_eq
  intro k hk
  have h1 := congrArg (fun x : Byte => x.getLsbD (k % 8)) (h (k / 8) (by omega))
  simp only [getLsbD_tsLane, show k % 8 < 8 by omega, decide_true, Bool.true_and] at h1
  rwa [show 8 * (k / 8) + k % 8 = k by omega] at h1

theorem toNat_setLenLow (len : Half) (b : Byte) : (setLenLow len b).toNat = 256 * (len.toNat / 256) + b.toNat := by
  have := b.isLt
  have := len.isLt
  simp only [setLenLow, BitVec.toNat_append, BitVec.extractLsb'_toNat, Nat.shiftRight_eq_div_pow]
  rw [← Nat.shiftLeft_add_eq_or_of_lt b.isLt, Nat.shiftLeft_eq]
  omega

theorem toNat_lenWithHigh (len : Half) (b : Byte) : (lenWithHigh len b).toNat = 256 * b.toNat + len.toNat % 256 := by
  have := b.isLt
  simp only [lenWithHigh, BitVec.toNat_append, BitVec.toNat_setWidth]
  rw [← Nat.shiftLeft_add_eq_or_of_lt (by omega), Nat.shiftLeft_eq]
  omega

end Sys2Proof.Machine
end

