-- ==== Sys2Proof/Laws/PerInstr.lean ====
section
/-! SUPPORT. The per-instruction family EncodedImage: the shape of an instruction's image, one lemma per constructor. -/

namespace Sys2Proof.Laws.EncodedImage

/-- The image of an instruction is three bytes, the third being its operand where it has one, and the operation map has
a row that gives the instruction and that its select word fits. -/
def Statement (i : Instr) : Prop :=
  (encode i).length = 3 ∧ (∀ b, i.operand = some b → (encode i)[2]? = some b) ∧
  ∃ row ∈ operationMap, row.op (i.operand.getD 0) = i ∧ row.fits i.selectWord = true

theorem ofRow {i : Instr} (n : Nat) (row : Row) (h : operationMap[n]? = some row)
    (h1 : row.op (i.operand.getD 0) = i) (h2 : row.fits i.selectWord = true) : Statement i := by
  refine ⟨rfl, fun b hb => ?_, row, List.mem_of_getElem? h, h1, h2⟩
  simp [encode, imageOf, hb]

theorem reset : Statement .reset := ofRow 0 _ rfl rfl rfl
theorem reservedState : Statement .reservedState := ofRow 1 _ rfl rfl rfl
theorem haltStopped : Statement .haltStopped := ofRow 2 _ rfl rfl rfl
theorem haltClosed : Statement .haltClosed := ofRow 3 _ rfl rfl rfl
theorem validate : Statement .validate := ofRow 4 _ rfl rfl rfl
theorem close : Statement .close := ofRow 5 _ rfl rfl rfl
theorem stop : Statement .stop := ofRow 6 _ rfl rfl rfl
theorem hdr1Scan (b : Byte) : Statement (.hdr1Scan b) := ofRow 7 _ rfl rfl (by simp [Row.fits, Instr.selectWord])
theorem hdr2Match (b : Byte) : Statement (.hdr2Match b) := ofRow 8 _ rfl rfl (by simp [Row.fits, Instr.selectWord])
theorem lenLo (b : Byte) : Statement (.lenLo b) := ofRow 9 _ rfl rfl (by simp [Row.fits, Instr.selectWord])
theorem lenHi (b : Byte) : Statement (.lenHi b) := ofRow 10 _ rfl rfl (by simp [Row.fits, Instr.selectWord])
theorem tsByte (b : Byte) : Statement (.tsByte b) := ofRow 11 _ rfl rfl (by simp [Row.fits, Instr.selectWord])
theorem paramByte (b : Byte) : Statement (.paramByte b) := ofRow 12 _ rfl rfl (by simp [Row.fits, Instr.selectWord])
theorem mtypeByte (b : Byte) : Statement (.mtypeByte b) := ofRow 13 _ rfl rfl (by simp [Row.fits, Instr.selectWord])
theorem statusByte (b : Byte) : Statement (.statusByte b) := ofRow 14 _ rfl rfl (by simp [Row.fits, Instr.selectWord])
theorem loopcByte (b : Byte) : Statement (.loopcByte b) := ofRow 15 _ rfl rfl (by simp [Row.fits, Instr.selectWord])
theorem chkByte (b : Byte) : Statement (.chkByte b) := ofRow 16 _ rfl rfl (by simp [Row.fits, Instr.selectWord])
theorem timeoutIdle : Statement .timeoutIdle := ofRow 17 _ rfl rfl rfl
theorem timeoutSync : Statement .timeoutSync := ofRow 18 _ rfl rfl rfl
theorem timeoutLength : Statement .timeoutLength := ofRow 19 _ rfl rfl rfl
theorem timeoutPayload : Statement .timeoutPayload := ofRow 20 _ rfl rfl rfl
theorem nop : Statement .nop := ofRow 21 _ rfl rfl rfl
theorem unreachable : Statement .unreachable := ofRow 22 _ rfl rfl rfl

end Sys2Proof.Laws.EncodedImage
end

