-- ==== Sys2Proof/Laws/Run.lean ====
section
/-! SUPPORT. The laws of runs (one step more, two runs in a row, what they emit and consume), of offered bytes, and of the
body bytes the registers hold. -/

namespace Sys2Proof.Machine

theorem trace_succ {n : Nat} {s t u : State} {outs : List Outputs} (h : step s = .next t)
    (h2 : trace n t = some (outs, u)) : trace (n + 1) s = some (t.out :: outs, u) := by
  simp [trace, h, h2]

theorem trace_append : ∀ {n m : Nat} {s t u : State} {o1 o2 : List Outputs},
    trace n s = some (o1, t) → trace m t = some (o2, u) → trace (n + m) s = some (o1 ++ o2, u)
  | 0, m, s, t, u, o1, o2, h1, h2 => by simp [trace] at h1; obtain ⟨rfl, rfl⟩ := h1; simpa using h2
  | n + 1, m, s, t, u, o1, o2, h1, h2 => by
    simp only [trace] at h1
    split at h1
    · rename_i v hv
      rw [Option.map_eq_some_iff] at h1
      obtain ⟨⟨o, w⟩, h3, h4⟩ := h1
      injection h4 with h4 h5
      subst h4 h5
      rw [show n + 1 + m = (n + m) + 1 by omega]
      exact trace_succ hv (trace_append h3 h2)
    · cases h1
    · cases h1

@[simp] theorem emitted_nil : emitted [] = [] := rfl
@[simp] theorem emitted_cons (o : Outputs) (l : List Outputs) :
    emitted (o :: l) = o.outcome.toList ++ emitted l := by
  unfold emitted; cases h : o.outcome <;> simp [h]
@[simp] theorem emitted_append (a b : List Outputs) : emitted (a ++ b) = emitted a ++ emitted b := by simp [emitted]
@[simp] theorem consumedCount_nil : consumedCount [] = 0 := rfl
@[simp] theorem consumedCount_cons (o : Outputs) (l : List Outputs) :
    consumedCount (o :: l) = (if o.consumed then 1 else 0) + consumedCount l := by
  unfold consumedCount; cases h : o.consumed <;> simp [h]; omega
@[simp] theorem consumedCount_append (a b : List Outputs) :
    consumedCount (a ++ b) = consumedCount a + consumedCount b := by simp [consumedCount]

theorem byteToken_offers (b : Byte) : offersByte (byteToken b) b := ⟨⟨rfl, rfl, rfl⟩, rfl, rfl⟩

theorem offered_append : ∀ (a b : List Byte) (gaps : List (List Byte)),
    offered (a ++ b) gaps = offered a gaps ++ offered b (gaps.drop a.length)
  | [], b, gaps => by simp [offered]
  | x :: a, b, [] => by simp [offered, offered_append a b []]
  | x :: a, b, g :: gs => by simp [offered, offered_append a b gs]

theorem offered_cons (b : Byte) (bs : List Byte) (gaps : List (List Byte)) :
    offered (b :: bs) gaps = (gaps.headD []).map quietToken ++ byteToken b :: offered bs gaps.tail := by
  cases gaps <;> simp [offered]

theorem offered_no_gaps : ∀ l : List Byte, offered l [] = l.map byteToken
  | [] => rfl
  | a :: l => by simp [offered, offered_no_gaps l]

/-- The body bytes look only at the fields of the frame. -/
theorem bodyByte_congr {s t : State} (h1 : s.ts = t.ts) (h2 : s.len = t.len) (h3 : s.pb = t.pb)
    (h4 : s.mtype = t.mtype) (h5 : s.stat = t.stat) (h6 : s.loopc = t.loopc) (h7 : s.rxchk = t.rxchk) (i : Nat) :
    bodyByte s i = bodyByte t i := by
  simp [bodyByte, h1, h2, h4, h5, h6, h7, readPB_congr h3]

theorem bodySum_congr {s t : State} (hl : s.len = t.len) :
    ∀ n, (∀ i, i < n → bodyByte s i = bodyByte t i) → bodySum s n = bodySum t n
  | 0, _ => by simp [bodySum, hl]
  | n + 1, h => by simp [bodySum, bodySum_congr hl n (fun i hi => h i (by omega)), h n (by omega)]

end Sys2Proof.Machine
end

