-- ==== Sys2Proof/Laws/Selectors.lean ====
section
/-! SUPPORT. The laws of the selectors and sums: the well-formed length, `fsel` in PAYLOAD, a word of PB as its four
bytes, and sums over lists of bytes. -/

namespace Sys2Proof.Machine

theorem lengthOk_iff (len : Half) : lengthOk len = true ↔ len.toNat % 4 = 0 ∧ 12 ≤ len.toNat := by
  unfold lengthOk; rw [Bool.and_eq_true, decide_eq_true_iff, beq_iff_eq]; rfl

theorem paramCount_of_ok {len : Half} (h : lengthOk len = true) : paramCount len = len.toNat / 4 - 3 := if_pos h

/-- What each value of `fsel` in PAYLOAD says of `off` and `len`. -/
theorem bodySelect_eq {off len : Nat} :
    (bodySelect off len = 0 → off < 8 ∧ 12 ≤ len) ∧
    (bodySelect off len = 1 → 8 ≤ off ∧ off + 4 < len ∧ 12 ≤ len) ∧
    (bodySelect off len = 2 → off + 4 = len ∧ 12 ≤ len) ∧
    (bodySelect off len = 3 → off + 3 = len ∧ 12 ≤ len) ∧
    (bodySelect off len = 4 → off + 2 = len ∧ 12 ≤ len) ∧
    (bodySelect off len = 5 → off + 1 = len ∧ 12 ≤ len) := by
  have hm : Config.lenMin = 12 := rfl
  unfold bodySelect
  refine ⟨?_, ?_, ?_, ?_, ?_, ?_⟩ <;>
    (split_ifs <;> first | (intro h; exact absurd h (by decide)) | (intro; omega))

/-- `off - 8` as a number, where it does not wrap. -/
theorem toNat_sub_eight {off : Half} (h : 8 ≤ off.toNat) : (off - 8).toNat = off.toNat - 8 := by
  have := off.isLt
  rw [BitVec.toNat_sub]; simp; omega

/-- The four bytes of `MemRead(a, 4)`. -/
theorem memRead_four (s : State) (a : Nat) : memRead s a 4 =
    (readPB s a).toNat + 256 * (readPB s (a + 1)).toNat + 65536 * (readPB s (a + 2)).toNat
      + 16777216 * (readPB s (a + 3)).toNat := by
  simp [memRead, Nat.shiftLeft_eq]; omega

theorem byteSum_append : ∀ a b : List Byte, byteSum (a ++ b) = byteSum a + byteSum b
  | [], b => by simp [byteSum]
  | x :: a, b => by simp [byteSum, byteSum_append a b]; omega

theorem byteSum_range_succ (f : Nat → Byte) (n : Nat) :
    byteSum ((List.range (n + 1)).map f) = byteSum ((List.range n).map f) + (f n).toNat := by
  rw [List.range_succ, List.map_append, byteSum_append]; simp [byteSum]

/-- One changed byte moves the sum by the difference. -/
theorem byteSum_set : ∀ (l : List Byte) (i : Nat) (x y : Byte), l[i]? = some x →
    byteSum (l.set i y) + x.toNat = byteSum l + y.toNat
  | [], i, x, y, h => by simp at h
  | a :: l, 0, x, y, h => by simp at h; subst h; simp [byteSum]; omega
  | a :: l, i + 1, x, y, h => by
    have := byteSum_set l i x y (by simpa using h)
    simp [byteSum]; omega

/-- The checksum in 8-bit arithmetic. -/
theorem checksum_eq (len : Half) (m st lc : Byte) (tb pby : List Byte) : checksum len m st lc tb pby =
    BitVec.setWidth 8 len + m + st + lc + BitVec.ofNat 8 (byteSum tb) + BitVec.ofNat 8 (byteSum pby) := by
  apply BitVec.eq_of_toNat_eq
  simp only [checksum, BitVec.toNat_ofNat, BitVec.toNat_add, BitVec.toNat_setWidth]
  omega

end Sys2Proof.Machine
end

