-- ==== Sys2Proof/Tests/Slice0.lean ====
section
/-! SUPPORT. The model's own tests: every constructor's decoding from a word written out from spec/30_encoding.md R74,
single steps with the results of spec/95_test_vectors.md, and for each statement a witness of its hypotheses. -/

namespace Sys2Proof.Tests

open Sys2Proof Sys2Proof.Machine

/-! ### Helpers -/

/-- The next state of an outcome. -/
def nextOf : Host.Outcome State Fault Refusal → Option State
  | .next s => some s
  | .fault _ => none
  | .refused _ => none

/-- The fault of an outcome. -/
def faultOf : Host.Outcome State Fault Refusal → Option Fault
  | .next _ => none
  | .fault r => some r
  | .refused _ => none

/-- A state at a place of a frame, with one input vector to come. -/
def placed (st : St) (off len : Half) (i : Inputs) : State :=
  { State.reset with st := st, off := off, len := len, inputs := [i] }

/-- `st`, `off`, the outcome and `consumed` after one step. -/
def brief (s : State) : Option (St × Half × Option FrameOutcome × Bool) :=
  (nextOf (step s)).map fun t => (t.st, t.off, t.out.outcome, t.out.consumed)

/-- The record of spec/95_test_vectors.md W1. -/
def recordW1 : Record := { ts := 0, params := [], mtype := 1, stat := 2, loopc := 1 }

/-- Its frame, as W1 writes it. -/
def frameW1 : List Byte := [0xEB, 0x90, 0x0C, 0x00, 0, 0, 0, 0, 0, 0, 0, 0, 0x01, 0x02, 0x01, 0x10]

/-- In VALIDATE, with W1's frame received and `rxchk` as given. -/
def validating (rxchk : Byte) (i : Inputs) : State :=
  { placed .validate 11 12 i with mtype := 1, stat := 2, loopc := 1, sum := 0x10, rxchk := rxchk }

/-- In PAYLOAD at the first body byte of a frame of the given length. -/
def starting (len : Half) (i : Inputs) : State :=
  { placed .payload 0 len i with sum := BitVec.setWidth 8 len }

/-! ### WellFormed: an ill-formed term for each check -/

theorem test_reservedState_ill_formed : Instr.reservedState.wellFormed = false := by decide
theorem test_unreachable_ill_formed : Instr.unreachable.wellFormed = false := by decide
theorem test_byte_operation_well_formed : (Instr.chkByte 0xFF).wellFormed = true := by decide
theorem test_not_multiple_of_four_refused : lengthOk 13 = false := by decide
theorem test_below_twelve_refused : lengthOk 8 = false ∧ lengthOk 0 = false := by decide
theorem test_size_overflow_refused :
    encodeFrame { recordW1 with params := List.replicate 16381 0 } = none := by
  rw [encodeFrame, if_neg (by simp only [List.length_replicate]; decide)]

/-! ### Decoding: one written-out word for each row of spec/30_encoding.md R74 (select word low byte, high byte, in_data) -/

theorem test_decode_reset : decodeImage [0x10, 0x00, 0x00] = .ok (.reset, []) := by rfl
theorem test_decode_reset_in_closed : decodeImage [0x1F, 0x06, 0x00] = .ok (.reset, []) := by rfl
theorem test_decode_reservedState : decodeImage [0x00, 0x07, 0x00] = .ok (.reservedState, []) := by rfl
theorem test_decode_haltStopped : decodeImage [0x0F, 0x05, 0x00] = .ok (.haltStopped, []) := by rfl
theorem test_decode_haltClosed : decodeImage [0x00, 0x06, 0x00] = .ok (.haltClosed, []) := by rfl
theorem test_decode_validate : decodeImage [0x0D, 0x04, 0xEB] = .ok (.validate, []) := by rfl
theorem test_decode_close_over_stop : decodeImage [0x0C, 0x01, 0x00] = .ok (.close, []) := by rfl
theorem test_decode_stop_over_byte : decodeImage [0x05, 0x02, 0x0C] = .ok (.stop, []) := by rfl
theorem test_decode_hdr1Scan : decodeImage [0x01, 0x00, 0xEB] = .ok (.hdr1Scan 0xEB, []) := by rfl
theorem test_decode_byte_over_timeout : decodeImage [0x03, 0x00, 0xEB] = .ok (.hdr1Scan 0xEB, []) := by rfl
theorem test_decode_hdr2Match : decodeImage [0x01, 0x01, 0x90] = .ok (.hdr2Match 0x90, []) := by rfl
theorem test_decode_lenLo : decodeImage [0x01, 0x02, 0x0C] = .ok (.lenLo 0x0C, []) := by rfl
theorem test_decode_lenHi : decodeImage [0x21, 0x02, 0x00] = .ok (.lenHi 0x00, []) := by rfl
theorem test_decode_tsByte : decodeImage [0x01, 0x03, 0xF0] = .ok (.tsByte 0xF0, []) := by rfl
theorem test_decode_paramByte : decodeImage [0x21, 0x03, 0x3F] = .ok (.paramByte 0x3F, []) := by rfl
theorem test_decode_mtypeByte : decodeImage [0x41, 0x03, 0x01] = .ok (.mtypeByte 0x01, []) := by rfl
theorem test_decode_statusByte : decodeImage [0x61, 0x03, 0x02] = .ok (.statusByte 0x02, []) := by rfl
theorem test_decode_loopcByte : decodeImage [0x81, 0x03, 0x01] = .ok (.loopcByte 0x01, []) := by rfl
theorem test_decode_chkByte : decodeImage [0xA1, 0x03, 0x10] = .ok (.chkByte 0x10, []) := by rfl
theorem test_decode_timeoutIdle : decodeImage [0x02, 0x00, 0x00] = .ok (.timeoutIdle, []) := by rfl
theorem test_decode_timeoutSync : decodeImage [0x02, 0x01, 0x00] = .ok (.timeoutSync, []) := by rfl
theorem test_decode_timeoutLength : decodeImage [0x22, 0x02, 0x00] = .ok (.timeoutLength, []) := by rfl
theorem test_decode_timeoutPayload : decodeImage [0xA2, 0x03, 0x00] = .ok (.timeoutPayload, []) := by rfl
theorem test_decode_nop : decodeImage [0x20, 0x03, 0x77] = .ok (.nop, []) := by rfl
theorem test_decode_unreachable : decodeImage [0x41, 0x02, 0x00] = .ok (.unreachable, []) := by rfl
theorem test_decode_too_wide : decodeImage [0x00, 0x08, 0x00] = .error .selectTooWide := by rfl
theorem test_decode_too_short : decodeImage [0x00, 0x00] = .error .tooShort := by rfl
theorem test_encode_paramByte : encode (.paramByte 0x3F) = [0x21, 0x03, 0x3F] := by decide
theorem test_decode_table_word : decodeTableWord 16 0x3A1 = some (.chkByte 0) := by decide
theorem test_decode_table_word_operand : decodeTableWord 24 0xEB0001 = some (.hdr1Scan 0xEB) := by decide
theorem test_decode_table_word_too_wide : decodeTableWord 16 0x800 = none := by decide

/-! ### Placing an instruction for the next step -/

theorem test_place_paramByte : fetch (State.reset.withFetchWord 24 0x3F0321) = .paramByte 0x3F := by decide
theorem test_place_lenHi : fetch (State.reset.withFetchWord 24 0x000221) = .lenHi 0 := by decide
theorem test_place_loopcByte : fetch (State.reset.withFetchWord 16 0x381) = .loopcByte 0 := by decide
theorem test_place_validate : fetch (State.reset.withFetchWord 16 0x400) = .validate := by decide
theorem test_place_unreachable : fetch (State.reset.withFetchWord 16 0x241) = .unreachable := by decide

/-! ### One step each (spec/95_test_vectors.md sections 2.1 to 2.6, and the examples of the rules) -/

theorem test_hdr1Scan_header : brief (placed .idle 0 0 (byteToken 0xEB)) = some (.sync, 0, none, true) := by decide
theorem test_hdr1Scan_noise : brief (placed .idle 0 0 (byteToken 0x90)) = some (.idle, 0, none, true) := by decide
theorem test_hdr2Match_match : brief (placed .sync 7 0 (byteToken 0x90)) = some (.length, 0, none, true) := by decide
theorem test_hdr2Match_header_again :
    brief (placed .sync 0 0 (byteToken 0xEB)) = some (.idle, 0, some .headerMismatch, true) := by decide
theorem test_lenLo_keeps_high :
    (nextOf (step (placed .length 0 0xAB34 (byteToken 0x0C)))).map (·.len) = some 0xAB0C := by decide
theorem test_lenHi_twelve : (nextOf (step (placed .length 1 0xFF0C (byteToken 0x00)))).map
    (fun t => (t.st, t.len, t.off, t.sum)) = some (.payload, 12, 0, 0x0C) := by decide
theorem test_lenHi_malformed : brief (placed .length 1 0x000D (byteToken 0x00)) =
    some (.idle, 1, some (.malformedLength 13), true) := by decide
theorem test_tsByte_lane_six : (nextOf (step (placed .payload 6 12 (byteToken 0xF0)))).map
    (fun t => (t.ts, t.sum, t.off)) = some (0x00F0000000000000, 0xF0, 7) := by decide
theorem test_tsByte_sum_wraps :
    (nextOf (step { placed .payload 0 12 (byteToken 0xFF) with sum := 0x02 })).map (·.sum) = some 0x01 := by decide
theorem test_paramByte_lane_three : (nextOf (step (placed .payload 11 16 (byteToken 0x3F)))).map
    (fun t => (t.pb, t.off)) = some ([(3, 0x3F)], 12) := by decide
theorem test_paramByte_outside_faults :
    faultOf (exec (.paramByte 0) (placed .payload 65528 16 idleToken)) = some .bufferAddress := by decide
theorem test_mtypeByte : (nextOf (step (placed .payload 8 12 (byteToken 0x01)))).map
    (fun t => (t.mtype, t.sum, t.off)) = some (1, 1, 9) := by decide
theorem test_statusByte : (nextOf (step (placed .payload 9 12 (byteToken 0x02)))).map
    (fun t => (t.stat, t.sum, t.off)) = some (2, 2, 10) := by decide
theorem test_loopcByte : (nextOf (step (placed .payload 10 12 (byteToken 0x01)))).map
    (fun t => (t.loopc, t.sum, t.off)) = some (1, 1, 11) := by decide
theorem test_chkByte : (nextOf (step (placed .payload 11 12 (byteToken 0x10)))).map
    (fun t => (t.rxchk, t.sum, t.off, t.st)) = some (0x10, 0, 11, .validate) := by decide
theorem test_validate_record :
    brief (validating 0x10 (stopByteToken 0xEB)) = some (.idle, 11, some (.record recordW1), false) := by decide
theorem test_validate_mismatch :
    brief (validating 0x11 idleToken) = some (.idle, 11, some (.checksumMismatch 12 0x10 0x11), false) := by decide
theorem test_parameter_word_order :
    paramWord { State.reset with pb := [(0, 1), (1, 2), (2, 3), (3, 4)] } 0 = 0x04030201 := by decide
theorem test_timeoutIdle : brief (placed .idle 0 0 timeoutToken) = some (.idle, 0, none, false) := by decide
theorem test_timeoutSync : brief (placed .sync 0 0 timeoutToken) = some (.sync, 0, none, false) := by decide
theorem test_timeoutLength :
    brief (placed .length 1 12 timeoutToken) = some (.idle, 1, some .shortRead, false) := by decide
theorem test_timeoutPayload :
    brief (placed .payload 11 12 timeoutToken) = some (.idle, 11, some .shortRead, false) := by decide
theorem test_stop_leaves_byte :
    brief (placed .payload 2 12 (stopByteToken 0xEB)) = some (.stopped, 2, none, false) := by decide
theorem test_close_over_stop : brief (placed .length 1 12 { closeToken with stop := true }) =
    some (.closed, 1, some .sourceClosed, false) := by decide
theorem test_haltStopped : brief (placed .stopped 0 0 (closeByteToken 0xEB)) = some (.stopped, 0, none, false) := by
  decide
theorem test_haltClosed : brief (placed .closed 0 0 stopToken) = some (.closed, 0, none, false) := by decide
theorem test_nop : brief (placed .sync 0 0 idleToken) = some (.sync, 0, none, false) := by decide
theorem test_reset_in_stopped : brief (placed .stopped 9 12 { resetToken with srcClosed := true }) =
    some (.idle, 0, none, false) := by decide
theorem test_reset_keeps_buffer :
    (nextOf (step { placed .payload 9 16 resetToken with pb := [(0, 7)] })).map (fun t => (t.pb, t.len, t.sum)) =
    some ([(0, 7)], 0, 0) := by decide
theorem test_reservedState_faults : faultOf (step (placed .reserved 0 0 idleToken)) = some .unreachable := by decide
theorem test_unreachable_faults : faultOf (step (placed .length 2 0 (byteToken 0))) = some .unreachable := by decide
theorem test_encode_W1 : encodeFrame recordW1 = some frameW1 := by decide
/-- spec/43_validate.md R171 (a): 256 contributes nothing, though its high byte is 1. -/
theorem test_checksum_high_length_byte : checksum 256 0 0 0 (List.replicate 8 0) [] = 0 := by decide

/-! ### The environment's duties (spec/70_reset_and_hazards.md R244, log entry 14) -/

theorem test_source_may_reopen_after_reset : HoldsClose { resetToken with srcClosed := true } idleToken := by
  simp [HoldsClose, resetToken]
theorem test_source_may_not_reopen_without_reset : ¬ HoldsClose closeToken idleToken := by
  simp [HoldsClose, closeToken, idleToken]
theorem test_stop_may_drop_after_reset : HoldsStop { resetToken with stop := true } idleToken .idle .idle := by
  simp [HoldsStop, resetToken]
theorem test_stop_pulse_in_validate_breaks_duty : ¬ HoldsStop stopToken idleToken .validate .idle := by
  simp [HoldsStop, stopToken, idleToken, isTerminal]

/-! ### Witnesses: for each statement with hypotheses, states and operands that meet them -/

/-- Two input vectors to come. -/
def placed2 (st : St) (off len : Half) (i j : Inputs) : State := { placed st off len i with inputs := [i, j] }

/-- The frame of spec/95_test_vectors.md P2: one parameter. -/
def recordP2 : Record := { ts := 0, params := [0x3F800000], mtype := 7, stat := 0, loopc := 0xFF }

/-- As P2 writes it. -/
def frameP2 : List Byte :=
  [0xEB, 0x90, 0x10, 0x00, 0, 0, 0, 0, 0, 0, 0, 0, 0x00, 0x00, 0x80, 0x3F, 0x07, 0x00, 0xFF, 0xD5]

/-- PAYLOAD at the last address of PB. -/
def lastParam (b : Byte) : State :=
  { placed .payload 65527 65532 (byteToken b) with sum := bodySum (placed .payload 65527 65532 (byteToken b)) 65527 }

theorem payload_inv {s : State} (h : s.st = .payload) (h1 : lengthOk s.len = true) (h2 : s.off.toNat < s.len.toNat)
    (h3 : s.sum = bodySum s s.off.toNat) (h4 : s.off.toNat < 65532) (h5 : pbWf s.pb = true) : FrameInv s :=
  ⟨by simp [h], by simp [h], fun _ => ⟨h1, h2, h3⟩, by simp [h], h4, h5⟩

theorem witness_starting_inv : FrameInv (starting 12 (byteToken 0xEB)) :=
  payload_inv rfl (by decide) (by decide) (by decide) (by decide) (by decide)

theorem witness_lastParam_inv (b : Byte) : FrameInv (lastParam b) :=
  payload_inv rfl (show lengthOk 65532 = true by decide) (show (65527 : Half).toNat < (65532 : Half).toNat by decide)
    (bodySum_congr (s := placed .payload 65527 65532 (byteToken b)) (t := lastParam b) rfl 65527 fun _ _ => rfl)
    (show (65527 : Half).toNat < 65532 by decide) rfl

theorem witness_length_inv : FrameInv (placed .length 1 0 (byteToken 0x0C)) :=
  ⟨by decide, fun _ => Or.inr rfl, by decide, by decide, by decide, by decide⟩

theorem witness_validating_inv : FrameInv (validating 0x10 idleToken) :=
  ⟨by decide, by decide, by decide, fun _ => ⟨by decide, by decide, by decide⟩, by decide, by decide⟩

theorem witness_validating_held_inv : FrameInv { validating 0x10 stopToken with inputs := [stopToken, stopToken] } :=
  ⟨by decide, by decide, by decide, fun _ => ⟨by decide, by decide, by decide⟩, by decide, by decide⟩

theorem witness_FieldSelectorTable : 12 ≤ (12 : Half).toNat ∧
    fsel .payload 7 12 = 0 ∧ fsel .payload 8 12 = 2 ∧ fsel .payload 9 12 = 3 ∧ fsel .payload 10 12 = 4 ∧
    fsel .payload 11 12 = 5 ∧ fsel .payload 7 16 = 0 ∧ fsel .payload 8 16 = 1 ∧ fsel .payload 11 16 = 1 ∧
    fsel .payload 12 16 = 2 ∧ fsel .payload 65527 65532 = 1 ∧ fsel .payload 65528 65532 = 2 ∧
    fsel .payload 65531 65532 = 5 ∧ fsel .length 0 5 = 0 ∧ fsel .length 1 5 = 1 ∧ fsel .sync 1 12 = 0 := by decide

theorem witness_StepRunsDecoded :
    decodeImage (fetchImage (placed .idle 0 0 (byteToken 0xEB))) = .ok (.hdr1Scan 0xEB, []) := by rfl

theorem witness_ConsumedIffValidAndReady :
    (∃ t, step (starting 12 (byteToken 0xEB)) = .next t) ∧ (fetch (starting 12 (byteToken 0xEB))).consumes = true ∧
    (currentInputs (starting 12 (byteToken 0xEB))).inValid = true ∧ inReady (starting 12 (byteToken 0xEB)) = true :=
  ⟨⟨_, rfl⟩, by decide, by decide, by decide⟩

theorem witness_StepKeepsFrameState :
    (FrameInv (starting 12 (byteToken 0xEB)) ∧ ∃ t, step (starting 12 (byteToken 0xEB)) = .next t) ∧
    (FrameInv (placed .length 1 0 (byteToken 0x0C)) ∧ ∃ t, step (placed .length 1 0 (byteToken 0x0C)) = .next t) ∧
    (FrameInv (validating 0x10 idleToken) ∧ ∃ t, step (validating 0x10 idleToken) = .next t) :=
  ⟨⟨witness_starting_inv, _, rfl⟩, ⟨witness_length_inv, _, rfl⟩, ⟨witness_validating_inv, _, rfl⟩⟩

theorem witness_FrameStateNeverFaults : FrameInv (lastParam 7) ∧ FrameInv (validating 0x10 idleToken) :=
  ⟨witness_lastParam_inv 7, witness_validating_inv⟩

theorem witness_StepKeepsBufferForm : pbWf (placed .payload 8 16 (byteToken 1)).pb = true ∧
    ∃ t, step (placed .payload 8 16 (byteToken 1)) = .next t := ⟨by decide, _, rfl⟩

theorem witness_OnlyParamByteWritesBuffer : (∃ t, step (placed .payload 8 12 (byteToken 1)) = .next t) ∧
    fetch (placed .payload 8 12 (byteToken 1)) = .mtypeByte 1 := ⟨⟨_, rfl⟩, by decide⟩

theorem witness_offersByte (b : Byte) : offersByte (byteToken b) b ∧ offersByte (timeoutByteToken b) b :=
  ⟨⟨⟨rfl, rfl, rfl⟩, rfl, rfl⟩, ⟨⟨rfl, rfl, rfl⟩, rfl, rfl⟩⟩

theorem witness_HeaderScan :
    (placed .idle 0 0 (timeoutByteToken 0xEB)).st = .idle ∧
    offersByte (currentInputs (placed .idle 0 0 (timeoutByteToken 0xEB))) 0xEB ∧
    (∀ b ∈ ([0x00, 0x90] : List Byte), b ≠ 0xEB) ∧
    (placed2 .idle 0 0 (byteToken 0x00) (byteToken 0x90)).inputs = ([0x00, 0x90] : List Byte).map byteToken ++ [] :=
  ⟨rfl, (witness_offersByte 0xEB).2, by decide, rfl⟩

theorem witness_SecondHeaderByte :
    (0xEB : Byte) ≠ 0x90 ∧ (placed .sync 0 0 (byteToken 0x90)).st = .sync ∧
    offersByte (currentInputs (placed .sync 0 0 (byteToken 0x90))) 0x90 ∧
    ({ State.reset with inputs := [byteToken 0xEB, byteToken 0xEB, byteToken 0x90] }).inputs =
      byteToken 0xEB :: byteToken 0xEB :: byteToken 0x90 :: [] :=
  ⟨by decide, rfl, (witness_offersByte 0x90).1, rfl⟩

theorem witness_ResynchronizesAfterMismatch :
    State.reset.st = .idle ∧ (∀ b ∈ ([0x55] : List Byte), b ≠ 0xEB) ∧ (0xEB : Byte) ≠ 0x90 ∧
    ({ State.reset with inputs := [byteToken 0x55, byteToken 0xEB, byteToken 0xEB] }).inputs =
      ([0x55] : List Byte).map byteToken ++ byteToken 0xEB :: byteToken 0xEB :: [] := ⟨rfl, by decide, by decide, rfl⟩

theorem witness_LengthLowByte :
    (placed .length 0 9 (byteToken 0x0C)).st = .length ∧ (placed .length 0 9 (byteToken 0x0C)).off = 0 ∧
    offersByte (currentInputs (placed .length 0 9 (byteToken 0x0C))) 0x0C := ⟨rfl, rfl, (witness_offersByte 0x0C).1⟩

theorem witness_WellFormedLengths :
    lengthOk 12 = true ∧ lengthOk 16 = true ∧ lengthOk 65532 = true ∧ lengthOk 8 = false ∧ lengthOk 14 = false ∧
    lengthOk 65535 = false ∧ paramCount 12 = 0 ∧ paramCount 65532 = 16380 := by decide

theorem witness_LengthHighByte :
    ((lenWithHigh 0xAB0C 0x00).toNat = 12 ∧ (lenWithHigh 0x00FC 0xFF).toNat = 65532 ∧
      (lenWithHigh 0x000D 0x00).toNat = 13) ∧
    (placed .length 1 12 (byteToken 0x00)).st = .length ∧ (placed .length 1 12 (byteToken 0x00)).off = 1 ∧
    offersByte (currentInputs (placed .length 1 12 (byteToken 0x00))) 0x00 :=
  ⟨by decide, rfl, rfl, (witness_offersByte 0x00).1⟩

theorem witness_TimestampByte :
    (placed .payload 7 12 (byteToken 1)).off.toNat < 8 ∧ lengthOk (placed .payload 7 12 (byteToken 1)).len = true ∧
    (placed .payload 7 12 (byteToken 1)).st = .payload ∧
    offersByte (currentInputs (placed .payload 7 12 (byteToken 1))) 1 :=
  ⟨by decide, by decide, rfl, (witness_offersByte 1).1⟩

theorem witness_ParameterByte_first :
    8 ≤ (placed .payload 8 16 (byteToken 1)).off.toNat ∧
    (placed .payload 8 16 (byteToken 1)).off.toNat + 4 < (placed .payload 8 16 (byteToken 1)).len.toNat ∧
    lengthOk (placed .payload 8 16 (byteToken 1)).len = true ∧ (placed .payload 8 16 (byteToken 1)).st = .payload ∧
    offersByte (currentInputs (placed .payload 8 16 (byteToken 1))) 1 :=
  ⟨by decide, by decide, by decide, rfl, (witness_offersByte 1).1⟩

theorem witness_ParameterByte_last :
    8 ≤ (lastParam 1).off.toNat ∧ (lastParam 1).off.toNat - 8 = 65519 ∧
    (lastParam 1).off.toNat + 4 < (lastParam 1).len.toNat ∧ lengthOk (lastParam 1).len = true ∧
    (lastParam 1).st = .payload ∧ offersByte (currentInputs (lastParam 1)) 1 :=
  ⟨show 8 ≤ (65527 : Half).toNat by decide, show (65527 : Half).toNat - 8 = 65519 by decide,
    show (65527 : Half).toNat + 4 < (65532 : Half).toNat by decide, rfl, rfl, (witness_offersByte 1).1⟩

theorem witness_OutOfRangeBodyOffsetStops :
    8 ≤ (placed .payload 8 12 idleToken).off.toNat ∧ (placed .payload 7 12 idleToken).off.toNat < 8 ∧
    65520 ≤ (placed .payload 65528 12 idleToken).off.toNat - 8 ∧
    (FrameInv (starting 12 (byteToken 0xEB)) ∧ fetch (starting 12 (byteToken 0xEB)) = .tsByte 0xEB) ∧
    (FrameInv (lastParam 1) ∧ fetch (lastParam 1) = .paramByte 1) :=
  ⟨by decide, by decide, by decide, ⟨witness_starting_inv, by decide⟩, ⟨witness_lastParam_inv 1, rfl⟩⟩

theorem witness_TrailerBytes :
    lengthOk (12 : Half) = true ∧ lengthOk (65532 : Half) = true ∧ (8 : Half) = 12 - 4 ∧ (9 : Half) = 12 - 3 ∧
    (10 : Half) = 12 - 2 ∧ (65528 : Half) = 65532 - 4 ∧ (65529 : Half) = 65532 - 3 ∧ (65530 : Half) = 65532 - 2 ∧
    fetch (placed .payload 8 12 (byteToken 1)) = .mtypeByte 1 ∧
    fetch (placed .payload 65529 65532 (byteToken 1)) = .statusByte 1 ∧
    fetch (placed .payload 65530 65532 (byteToken 1)) = .loopcByte 1 := by decide

theorem witness_ChecksumByte :
    lengthOk (placed .payload 11 12 (byteToken 1)).len = true ∧ (placed .payload 11 12 (byteToken 1)).st = .payload ∧
    (placed .payload 11 12 (byteToken 1)).off = (placed .payload 11 12 (byteToken 1)).len - 1 ∧
    offersByte (currentInputs (placed .payload 11 12 (byteToken 1))) 1 :=
  ⟨by decide, rfl, by decide, (witness_offersByte 1).1⟩

theorem witness_ValidateOutcome :
    (validating 0x10 idleToken).sum = (validating 0x10 idleToken).rxchk ∧
    lengthOk (validating 0x10 idleToken).len = true ∧
    (validating 0x11 idleToken).sum ≠ (validating 0x11 idleToken).rxchk ∧ (validating 0x11 idleToken).st = .validate ∧
    (currentInputs (validating 0x11 stopToken)).rst = false := by decide

theorem witness_RunningSumIsChecksum :
    (0x010C : Half).toNat % 256 = (0x000C : Half).toNat % 256 ∧ (0x010C : Half) ≠ 0x000C ∧
    FrameInv (validating 0x10 idleToken) ∧ (validating 0x10 idleToken).st = .validate :=
  ⟨by decide, by decide, witness_validating_inv, rfl⟩

theorem witness_RecordOnlyWhenValid :
    (∃ t, step (validating 0x10 idleToken) = .next t ∧ t.out.outcome = some (.record recordW1)) ∧
    (∃ t, step (validating 0x11 idleToken) = .next t ∧ outKind t.out.outcome ≠ 1) :=
  ⟨⟨_, rfl, by decide⟩, ⟨_, rfl, by decide⟩⟩

theorem witness_OutcomeFollowsChecksumByte :
    ∃ t, step (placed2 .payload 11 12 (byteToken 0x10) idleToken) = .next t ∧
      fetch (placed2 .payload 11 12 (byteToken 0x10) idleToken) = .chkByte 0x10 ∧ (currentInputs t).rst = false :=
  ⟨_, rfl, by decide, by decide⟩

theorem witness_TimeoutBeforeLengthRetries :
    timesOut (currentInputs (placed .idle 0 0 timeoutToken)) ∧ timesOut (currentInputs (placed .sync 0 0 timeoutToken)) ∧
    (placed2 .sync 0 0 timeoutToken timeoutToken).inputs = List.replicate 2 timeoutToken ++ [] :=
  ⟨⟨⟨rfl, rfl, rfl⟩, rfl, rfl⟩, ⟨⟨rfl, rfl, rfl⟩, rfl, rfl⟩, rfl⟩

theorem witness_TimeoutInFrameIsShortRead :
    timesOut (currentInputs (placed .length 0 0 timeoutToken)) ∧ (placed .length 0 0 timeoutToken).st = .length ∧
    timesOut (currentInputs (placed .payload 11 12 timeoutToken)) ∧
    (placed .payload 11 12 timeoutToken).st = .payload :=
  ⟨⟨⟨rfl, rfl, rfl⟩, rfl, rfl⟩, rfl, ⟨⟨rfl, rfl, rfl⟩, rfl, rfl⟩, rfl⟩

theorem witness_StopEndsDecoder :
    (placed .payload 3 12 (stopByteToken 1)).st = .payload ∧
    (currentInputs (placed .payload 3 12 (stopByteToken 1))).rst = false ∧
    (currentInputs (placed .payload 3 12 (stopByteToken 1))).srcClosed = false ∧
    (currentInputs (placed .payload 3 12 (stopByteToken 1))).stop = true := by decide

theorem witness_CloseEndsDecoder :
    (placed .sync 0 0 closeToken).st = .sync ∧ (currentInputs (placed .sync 0 0 closeToken)).rst = false ∧
    (currentInputs (placed .sync 0 0 closeToken)).srcClosed = true := by decide

theorem witness_QuietStepChangesNothing :
    isQuiet (currentInputs (placed .length 1 12 (quietToken 0xEB))) ∧
    (placed2 .length 1 12 (quietToken 0xEB) idleToken).inputs = ([0xEB, 0x00] : List Byte).map quietToken ++ [] :=
  ⟨⟨⟨rfl, rfl, rfl⟩, rfl, rfl⟩, rfl⟩

theorem witness_TerminalStatesHalt :
    (placed .stopped 0 0 (byteToken 0xEB)).st = .stopped ∧
    (currentInputs (placed .stopped 0 0 (byteToken 0xEB))).rst = false ∧
    (placed .closed 0 0 stopToken).st = .closed ∧ (currentInputs (placed .closed 0 0 stopToken)).rst = false ∧
    (∃ t, step (placed .closed 0 0 resetToken) = .next t ∧ t.st ≠ (placed .closed 0 0 resetToken).st) :=
  ⟨rfl, by decide, rfl, by decide, ⟨_, rfl, by decide⟩⟩

theorem witness_ShortReadScenario :
    State.reset.st = .idle ∧
    ({ State.reset with
        inputs := [byteToken 0xEB, byteToken 0x90, byteToken 0x0C, byteToken 0, timeoutToken, byteToken 0xEB] }).inputs =
      ([0xEB, 0x90, 0x0C, 0x00] : List Byte).map byteToken ++ timeoutToken :: byteToken 0xEB :: [] := ⟨rfl, rfl⟩

theorem witness_FrameErrorsNeverEnd :
    (isTerminal (placed .sync 0 0 stopToken).st = false ∧
      ∃ t, step (placed .sync 0 0 stopToken) = .next t ∧ isTerminal t.st = true) ∧
    (∃ t, step (placed .sync 0 0 (byteToken 0x41)) = .next t ∧ t.out.outcome = some .headerMismatch ∧
      isFrameError .headerMismatch = true) ∧
    (FrameInv (starting 12 (byteToken 0xEB)) ∧ isTerminal (starting 12 (byteToken 0xEB)).st = false ∧
      (∀ i ∈ [byteToken 0xEB], undisturbed i) ∧ (starting 12 (byteToken 0xEB)).inputs = [byteToken 0xEB] ++ []) :=
  ⟨⟨by decide, _, rfl, by decide⟩, ⟨_, rfl, by decide, by decide⟩,
    ⟨witness_starting_inv, by decide, by simp [undisturbed, byteToken, idleToken], rfl⟩⟩

theorem witness_HeldLevelEndsDecoder :
    FrameInv { validating 0x10 stopToken with inputs := [stopToken, stopToken] } ∧
    ({ validating 0x10 stopToken with inputs := [stopToken, stopToken] }).inputs = stopToken :: stopToken :: [] ∧
    stopToken.rst = false ∧ stopToken.stop = true ∧ closeToken.rst = false ∧ closeToken.srcClosed = true :=
  ⟨witness_validating_held_inv, rfl, rfl, rfl, rfl, rfl⟩

theorem witness_ResetStep : (currentInputs (placed .payload 3 12 resetToken)).rst = true ∧
    ∃ t, exec .reset (placed .payload 3 12 resetToken) = .next t := ⟨by decide, _, rfl⟩

theorem witness_ReservedRowsFault :
    (placed .reserved 0 0 idleToken).st = .reserved ∧ (currentInputs (placed .reserved 0 0 idleToken)).rst = false ∧
    undisturbed (byteToken 1) ∧ (byteToken 1).inValid = true ∧ 2 ≤ (2 : BitVec 3).toNat ∧ 6 ≤ (6 : BitVec 3).toNat :=
  ⟨rfl, by decide, ⟨rfl, rfl, rfl⟩, rfl, by decide, by decide⟩

theorem witness_OutcomePortFields :
    recordP2.params.length ≤ 16380 ∧ 0 < recordP2.params.length ∧ recordP2.params.length ≤ 1 ∧
    outKind (some .shortRead) ≠ 1 ∧ outKind (some .shortRead) ≠ 3 ∧ outKind (some .shortRead) ≠ 5 ∧
    outParamWord (some (.record recordP2)) 0 = 0x3F800000 ∧ outParamWord (some (.record recordP2)) 1 = 0 := by decide

theorem witness_OutcomePortFaithful :
    (∀ r, some (FrameOutcome.record recordP2) = some (.record r) → r.params.length ≤ 16380) ∧
    (∀ k, k < 16380 → outParamWord (some (.record recordP2)) k = outParamWord (some (.record recordP2)) k) :=
  ⟨by intro r h; cases h; decide, fun _ _ => rfl⟩

theorem witness_ErrorEntryOnlyReturnsToIdle :
    (∃ t, step (placed .payload 3 12 timeoutToken) = .next t ∧ t.out.outcome = some .shortRead ∧
      isFrameError .shortRead = true) ∧
    (∃ t, step (placed .length 1 13 (byteToken 0)) = .next t ∧ t.out.outcome = some (.malformedLength 13)) :=
  ⟨⟨_, rfl, by decide, by decide⟩, ⟨_, rfl, by decide⟩⟩

theorem witness_EncodedFrameLayout : encodeFrame recordP2 = some frameP2 := by decide

theorem witness_EncodedFrameRoundTrips :
    encodeFrame recordW1 = some frameW1 ∧ State.reset.st = .idle ∧ idleToken.rst = false ∧
    ({ State.reset with inputs := offered frameW1 [[0x55], [], [0xEB, 0]] ++ [idleToken] }).inputs =
      offered frameW1 [[0x55], [], [0xEB, 0]] ++ idleToken :: [] := ⟨by decide, rfl, rfl, rfl⟩

theorem witness_NoiseRecovery :
    encodeFrame recordW1 = some frameW1 ∧ (∀ b ∈ ([0x00, 0x55, 0xFF] : List Byte), b ≠ 0xEB) ∧
    (∀ b ∈ ([0x13] : List Byte), b ≠ 0xEB) ∧ State.reset.st = .idle ∧ idleToken.rst = false ∧
    ({ State.reset with
        inputs := offered ([0x00, 0x55, 0xFF] ++ frameW1) [] ++ idleToken :: (offered [0x13] [] ++ []) }).inputs =
      offered ([0x00, 0x55, 0xFF] ++ frameW1) [] ++ idleToken :: (offered [0x13] [] ++ []) :=
  ⟨by decide, by decide, by decide, rfl, rfl, rfl⟩

theorem witness_ChecksumSensitivity :
    encodeFrame recordW1 = some frameW1 ∧ frameW1[4]? = some 0x00 ∧ frameW1[14]? = some 0x01 ∧
    frameW1[15]? = some 0x10 ∧ (0x11 : Byte) ≠ 0x10 ∧ State.reset.st = .idle ∧ idleToken.rst = false ∧
    ({ State.reset with inputs := (frameW1.set 15 0x11).map byteToken ++ [idleToken] }).inputs =
      (frameW1.set 15 0x11).map byteToken ++ idleToken :: [] :=
  ⟨by decide, rfl, rfl, rfl, by decide, rfl, rfl, rfl⟩

/-- spec/95_test_vectors.md W7: timestamp bytes 0 and 1 changed to `01 FF`. -/
theorem witness_CancellingChangesPass :
    encodeFrame recordW1 = some frameW1 ∧ 5 + 1 < frameW1.length ∧ frameW1[4]? = some 0x00 ∧
    frameW1[5]? = some 0x00 ∧ (0x00 : Byte) ≠ 0x01 ∧ (0x01 : Byte) + 0xFF = 0x00 + 0x00 ∧ idleToken.rst = false ∧
    ({ State.reset with inputs := ((frameW1.set 4 0x01).set 5 0xFF).map byteToken ++ [idleToken] }).inputs =
      ((frameW1.set 4 0x01).set 5 0xFF).map byteToken ++ idleToken :: [] :=
  ⟨by decide, by decide, rfl, rfl, by decide, by decide, rfl, rfl⟩

theorem witness_BodyHoldsReceivedBytes :
    (starting 12 (byteToken 7)).st = .payload ∧ (starting 12 (byteToken 7)).off = 0 ∧
    lengthOk (starting 12 (byteToken 7)).len = true ∧
    (starting 12 (byteToken 7)).sum = BitVec.setWidth 8 (starting 12 (byteToken 7)).len ∧
    ([7] : List Byte).length < (starting 12 (byteToken 7)).len.toNat ∧
    (starting 12 (byteToken 7)).inputs = offered [7] [] ++ [] := ⟨rfl, rfl, by decide, rfl, by decide, rfl⟩

theorem witness_LengthFieldCutsStream :
    (frameW1.drop 4).length = 256 * (0x00 : Byte).toNat + (0x0C : Byte).toNat ∧ (frameW1.drop 4).length % 4 = 0 ∧
    12 ≤ (frameW1.drop 4).length ∧ State.reset.st = .idle ∧ idleToken.rst = false ∧
    ({ State.reset with inputs := offered ([0xEB, 0x90, 0x0C, 0x00] ++ frameW1.drop 4) [] ++ [idleToken] }).inputs =
      offered ([0xEB, 0x90, 0x0C, 0x00] ++ frameW1.drop 4) [] ++ idleToken :: [] ∧
    (frameW1.drop 4)[11]? =
      some (BitVec.ofNat 8 ((0x0C : Byte).toNat + byteSum ((frameW1.drop 4).take 11))) ∧
    ¬ ((256 * (0x00 : Byte).toNat + (0x0D : Byte).toNat) % 4 = 0 ∧
      12 ≤ 256 * (0x00 : Byte).toNat + (0x0D : Byte).toNat) :=
  ⟨by decide, by decide, by decide, rfl, rfl, rfl, by decide, by decide⟩

theorem witness_LaunchRegistersUnseen :
    (placed .idle 0 0 (byteToken 0xEB)).st = .idle ∧
    ({ placed .idle 9 0xFFFF (byteToken 0xEB) with ts := 5, sum := 3, pb := [(0, 1)] }).st = .idle ∧
    (placed .idle 0 0 (byteToken 0xEB)).inputs =
      ({ placed .idle 9 0xFFFF (byteToken 0xEB) with ts := 5, sum := 3, pb := [(0, 1)] }).inputs ∧
    (placed .idle 0 0 (byteToken 0xEB)).draws =
      ({ placed .idle 9 0xFFFF (byteToken 0xEB) with ts := 5, sum := 3, pb := [(0, 1)] }).draws :=
  ⟨rfl, rfl, rfl, rfl⟩

end Sys2Proof.Tests
end

/-! SUPPORT. The image decoder over the image of a select word (spec/30_encoding.md R74; log entry 10), and the step
as the decoded operation (spec/00_scope.md R9). -/

namespace Sys2Proof

/-- The five bits of an image above the select word are 0. -/
theorem imageOf_high_masked (sel : SelectWord) : BitVec.setWidth 8 (sel >>> 8) &&& 0xF8 = (0 : Byte) := by
  apply BitVec.eq_of_getLsbD_eq
  intro k hk
  have hmask : (0xF8 : Byte).getLsbD k = decide (3 ≤ k) := by
    interval_cases k <;> decide
  rw [BitVec.getLsbD_and, hmask, BitVec.getLsbD_setWidth, BitVec.getLsbD_ushiftRight]
  by_cases h3 : 3 ≤ k
  · simp [BitVec.getLsbD_of_ge sel (8 + k) (by omega)]
  · simp [h3]

/-- The two bytes of an image hold the whole select word. -/
theorem selectOfBytes_imageOf (sel : SelectWord) :
    selectOfBytes (BitVec.setWidth 8 sel) (BitVec.setWidth 8 (sel >>> 8)) = sel := by
  apply BitVec.eq_of_getLsbD_eq
  intro k hk
  rw [selectOfBytes, BitVec.getLsbD_setWidth, BitVec.getLsbD_append]
  split
  case isTrue hlow => simp [hk, hlow]
  case isFalse hhigh =>
    have hbit : 8 + (k - 8) = k := by omega
    simp [hk, hbit, show k - 8 < 8 by omega]

/-- Decoding the image of a select word and a data byte gives the operation that the word selects, and whatever bytes
follow the image. -/
theorem decodeImage_imageOf_append (sel : SelectWord) (b : Byte) (rest : List Byte) :
    decodeImage (imageOf sel b ++ rest) = .ok (decodeSelect sel b, rest) := by
  simp only [imageOf, List.cons_append, List.nil_append, decodeImage]
  rw [if_pos (imageOf_high_masked sel), selectOfBytes_imageOf]

end Sys2Proof

namespace Sys2Proof.Machine

/-- The image that a step forms decodes to the operation that it fetches. -/
theorem decodeImage_fetchImage (s : State) : decodeImage (fetchImage s) = .ok (fetch s, []) := by
  simpa [fetchImage, fetch] using decodeImage_imageOf_append (currentSelect s) (currentInputs s).inData []

/-- The start of a step, whether its input vector is listed or drawn. -/
theorem beginStep_eq (s : State) :
    beginStep s = { s with
      inputs := s.inputs.tail
      draws := if s.inputs = [] then s.draws + 1 else s.draws
      out := { stOut := s.st, inReady := inReady s, consumed := false, outcome := none } } := by
  apply State_eq <;> simp

/-- Settles O6: the step's image decodes to the fetched operation and to no other, and a step is that operation at the
state in which the inputs are sampled. -/
theorem stepRunsDecoded : Obligations.StepRunsDecoded := by
  unfold Obligations.StepRunsDecoded
  intro s i rest hdec
  have hfetch : fetch s = i := by
    rw [decodeImage_fetchImage, Except.ok.injEq, Prod.mk.injEq] at hdec
    exact hdec.1
  rw [step_eq, hfetch, beginStep_eq]

end Sys2Proof.Machine

/-! SUPPORT. The operation of a step by the fields of its select word: a row's match and mask read field by field, the
first fitting row as the priority list of spec/60_exceptions.md R214, and the place of a frame at which each operation
is selected. -/

namespace Sys2Proof

/-- The byte that an operation puts into the frame's registers: rows 12 to 16 of the operation map, the body bytes that
`sum` covers. -/
def Instr.bodyOperand : Instr → Option Byte
  | .tsByte b | .paramByte b | .mtypeByte b | .statusByte b | .loopcByte b => some b
  | _ => none

end Sys2Proof

namespace Sys2Proof.Machine

/-! ### The fields of a select word (spec/30_encoding.md R74) -/

/-- A select word is its two 3-bit fields and its five input bits. -/
theorem selectWord_ext_iff {v w : SelectWord} :
    v = w ↔ v.extractLsb' 8 3 = w.extractLsb' 8 3 ∧ v.extractLsb' 5 3 = w.extractLsb' 5 3 ∧
      v.getLsbD 4 = w.getLsbD 4 ∧ v.getLsbD 3 = w.getLsbD 3 ∧ v.getLsbD 2 = w.getLsbD 2 ∧
      v.getLsbD 1 = w.getLsbD 1 ∧ v.getLsbD 0 = w.getLsbD 0 := by
  constructor
  case mp => rintro rfl; simp
  case mpr =>
    rintro ⟨hst, hfsel, h4, h3, h2, h1, h0⟩
    have hfield : ∀ p k, k < 3 → v.extractLsb' p 3 = w.extractLsb' p 3 → v.getLsbD (p + k) = w.getLsbD (p + k) := by
      intro p k hk h
      simpa [BitVec.getLsbD_extractLsb', hk] using congrArg (·.getLsbD k) h
    apply BitVec.eq_of_getLsbD_eq
    intro k hk
    interval_cases k
    · exact h0
    · exact h1
    · exact h2
    · exact h3
    · exact h4
    · exact hfield 5 0 (by omega) hfsel
    · exact hfield 5 1 (by omega) hfsel
    · exact hfield 5 2 (by omega) hfsel
    · exact hfield 8 0 (by omega) hst
    · exact hfield 8 1 (by omega) hst
    · exact hfield 8 2 (by omega) hst

section
variable (st : St) (f : BitVec 3) (i : Inputs)

theorem selectWordOf_st : (selectWordOf st f i).extractLsb' 8 3 = stCode st := by
  unfold selectWordOf
  repeat rw [BitVec.extractLsb'_append_eq_of_le (by omega)]
  exact BitVec.extractLsb'_eq_self

theorem selectWordOf_fsel : (selectWordOf st f i).extractLsb' 5 3 = f := by
  unfold selectWordOf
  repeat rw [BitVec.extractLsb'_append_eq_of_le (by omega)]
  exact BitVec.extractLsb'_append_eq_right

theorem selectWordOf_rst : (selectWordOf st f i).getLsbD 4 = i.rst := by
  simp only [selectWordOf, BitVec.getLsbD_append]
  simp

theorem selectWordOf_srcClosed : (selectWordOf st f i).getLsbD 3 = i.srcClosed := by
  simp only [selectWordOf, BitVec.getLsbD_append]
  simp

theorem selectWordOf_stop : (selectWordOf st f i).getLsbD 2 = i.stop := by
  simp only [selectWordOf, BitVec.getLsbD_append]
  simp

theorem selectWordOf_inTimeout : (selectWordOf st f i).getLsbD 1 = i.inTimeout := by
  simp only [selectWordOf, BitVec.getLsbD_append]
  simp

theorem selectWordOf_inValid : (selectWordOf st f i).getLsbD 0 = i.inValid := by
  simp only [selectWordOf, BitVec.getLsbD_append]
  simp

/-- A row fits the select word of a step where it fits each field. -/
theorem fits_selectWordOf (r : Row) : r.fits (selectWordOf st f i) = true ↔
    stCode st &&& r.mask.extractLsb' 8 3 = r.pattern.extractLsb' 8 3 ∧
    f &&& r.mask.extractLsb' 5 3 = r.pattern.extractLsb' 5 3 ∧
    (i.rst && r.mask.getLsbD 4) = r.pattern.getLsbD 4 ∧
    (i.srcClosed && r.mask.getLsbD 3) = r.pattern.getLsbD 3 ∧
    (i.stop && r.mask.getLsbD 2) = r.pattern.getLsbD 2 ∧
    (i.inTimeout && r.mask.getLsbD 1) = r.pattern.getLsbD 1 ∧
    (i.inValid && r.mask.getLsbD 0) = r.pattern.getLsbD 0 := by
  simp only [Row.fits, beq_iff_eq, selectWord_ext_iff, BitVec.extractLsb'_and, BitVec.getLsbD_and, selectWordOf_st,
    selectWordOf_fsel, selectWordOf_rst, selectWordOf_srcClosed, selectWordOf_stop, selectWordOf_inTimeout,
    selectWordOf_inValid]

/-- The first row that fits is the choice of the priority list (spec/60_exceptions.md R214). The rows of timeouts and NOP
test `in_valid` and `in_timeout` together, the list one after the other: hence the split on both. -/
theorem decodeSelect_selectWordOf : decodeSelect (selectWordOf st f i) i.inData = priorityChoice st f i := by
  have hmask : f &&& 7#3 = f := BitVec.and_allOnes
  have hfsel : ∀ c : BitVec 3, f.toNat = c.toNat ↔ f = c := fun c => BitVec.toNat_inj
  cases st <;> cases hvalid : i.inValid <;> cases htimeout : i.inTimeout <;>
    simp [decodeSelect, firstFit, operationMap, fits_selectWordOf, priorityChoice, stCode, hmask, ← hfsel, hvalid,
      htimeout]

end

theorem fetch_eq (s : State) : fetch s = priorityChoice s.st (fsel s.st s.off s.len) (currentInputs s) :=
  decodeSelect_selectWordOf ..

/-! ### The rows of `fsel` (spec/10_state.md R33) -/

/-- The PAYLOAD rows partition `off < len` where `len` is at least 12. -/
theorem bodySelect_rows {off len : Nat} (hlen : 12 ≤ len) (hoff : off < len) :
    (off < 8 ∧ bodySelect off len = 0) ∨ (8 ≤ off ∧ off + 4 < len ∧ bodySelect off len = 1) ∨
    (8 ≤ off ∧ off + 4 = len ∧ bodySelect off len = 2) ∨ (off + 3 = len ∧ bodySelect off len = 3) ∨
    (off + 2 = len ∧ bodySelect off len = 4) ∨ (off + 1 = len ∧ bodySelect off len = 5) := by
  have hmin : ¬ len < Config.lenMin := Nat.not_lt.mpr hlen
  simp only [bodySelect, if_neg hmin]
  split_ifs <;> simp <;> omega

/-- Outside its rows the model's `fsel` in PAYLOAD is the reserved value. -/
theorem bodySelect_noRow {off len : Nat} (h : len < 12 ∨ len ≤ off) : bodySelect off len = 7 := by
  have hmin : Config.lenMin = 12 := rfl
  unfold bodySelect
  split_ifs <;> simp <;> omega

/-! ### The place of a frame at which an operation is selected -/

/-- Where in a frame the map of spec/30_encoding.md R74 selects each operation: the "st" and "fsel" columns, with the
field selector read back to `off` and `len` by spec/10_state.md R33. -/
def selectedAt (s : State) : Instr → Prop
  | .reset => True
  | .reservedState => s.st = .reserved
  | .haltStopped => s.st = .stopped
  | .haltClosed => s.st = .closed
  | .validate => s.st = .validate
  | .close | .stop | .nop => isReceiving s.st = true
  | .hdr1Scan _ | .timeoutIdle => s.st = .idle
  | .hdr2Match _ | .timeoutSync => s.st = .sync
  | .lenLo _ => s.st = .length ∧ s.off = 0
  | .lenHi _ => s.st = .length ∧ s.off = 1
  | .timeoutLength => s.st = .length
  | .tsByte _ => s.st = .payload ∧ 12 ≤ s.len.toNat ∧ s.off.toNat < 8
  | .paramByte _ => s.st = .payload ∧ 8 ≤ s.off.toNat ∧ s.off.toNat + 4 < s.len.toNat
  | .mtypeByte _ => s.st = .payload ∧ 8 ≤ s.off.toNat ∧ s.off.toNat + 4 = s.len.toNat
  | .statusByte _ => s.st = .payload ∧ 8 ≤ s.off.toNat ∧ s.off.toNat + 3 = s.len.toNat
  | .loopcByte _ => s.st = .payload ∧ 8 ≤ s.off.toNat ∧ s.off.toNat + 2 = s.len.toNat
  | .chkByte _ => s.st = .payload ∧ 8 ≤ s.off.toNat ∧ s.off.toNat + 1 = s.len.toNat
  | .timeoutPayload => s.st = .payload
  | .unreachable => (s.st = .length ∧ s.off ≠ 0 ∧ s.off ≠ 1) ∨
      (s.st = .payload ∧ (s.len.toNat < 12 ∨ s.len.toNat ≤ s.off.toNat))

/-- Every step selects its operation at the operation's own place. -/
theorem selectedAt_fetch (s : State) : selectedAt s (fetch s) := by
  rw [fetch_eq]
  cases hst : s.st <;> simp only [priorityChoice, fsel]
  case length =>
    split_ifs <;> simp_all [selectedAt, isReceiving]
  case payload =>
    by_cases hrow : 12 ≤ s.len.toNat ∧ s.off.toNat < s.len.toNat
    · have hrows := bodySelect_rows hrow.1 hrow.2
      obtain h | h | h | h | h | h := hrows <;> split_ifs <;> simp_all [selectedAt, isReceiving] <;> omega
    · have hno : s.len.toNat < 12 ∨ s.len.toNat ≤ s.off.toNat := by omega
      have hsel := bodySelect_noRow hno
      split_ifs <;> simp_all [selectedAt, isReceiving]
  all_goals split_ifs <;> simp [selectedAt, isReceiving, hst]

/-- Sampling the inputs moves the block to no other place. -/
theorem selectedAt_beginStep {s : State} {i : Instr} : selectedAt (beginStep s) i ↔ selectedAt s i := by
  cases i <;> simp [selectedAt]

/-- Settles O5: each row is one of `bodySelect_rows`, and R35's states lie within the rows. -/
theorem fieldSelectorTable : Obligations.FieldSelectorTable := by
  unfold Obligations.FieldSelectorTable
  refine ⟨fun _ => ⟨rfl, rfl⟩, fun off len hlen => ?_, fun st _ _ hlength hpayload => ?_, fun s hs => ?_⟩
  · have hrows := bodySelect_rows (off := off.toNat) hlen
    simp only [fsel]
    refine ⟨?_, ?_, ?_, ?_, ?_, ?_⟩ <;> bv_omega
  · cases st
    case length => exact absurd rfl hlength
    case payload => exact absurd rfl hpayload
    all_goals rfl
  · cases hst : s.st
    case length =>
      obtain hoff | hoff := hs.lengthOff hst <;> simp [hoff, fsel]
    case payload =>
      obtain ⟨hok, hlt, -⟩ := hs.payload hst
      have hrows := bodySelect_rows ((lengthOk_iff _).mp hok).2 hlt
      simp only [fsel, reduceCtorEq, false_implies, and_true]
      bv_omega
    all_goals simp [fsel]

end Sys2Proof.Machine

/-! SUPPORT. What a step does to the body bytes that the registers hold (spec/30_encoding.md R72, spec/42_payload.md
R147). -/

namespace Sys2Proof.Machine

/-! ### The register that holds each body byte (spec/30_encoding.md R72) -/

section
variable {s : State} {i : Nat}

theorem bodyByte_of_lt_eight (hi : i < 8) : bodyByte s i = BitVec.extractLsb' (8 * i) 8 s.ts := if_pos hi

theorem bodyByte_param (hi : 8 ≤ i) (hlen : i + 4 < s.len.toNat) : bodyByte s i = readPB s (i - 8) := by
  simp [bodyByte, hlen, show ¬ i < 8 by omega]

theorem bodyByte_mtype (hi : 8 ≤ i) (hlen : i + 4 = s.len.toNat) : bodyByte s i = s.mtype := by
  simp [bodyByte, ← hlen, show ¬ i < 8 by omega]

theorem bodyByte_stat (hi : 8 ≤ i) (hlen : i + 3 = s.len.toNat) : bodyByte s i = s.stat := by
  simp [bodyByte, ← hlen, show ¬ i < 8 by omega]

theorem bodyByte_loopc (hi : 8 ≤ i) (hlen : i + 2 = s.len.toNat) : bodyByte s i = s.loopc := by
  simp [bodyByte, ← hlen, show ¬ i < 8 by omega]

end

/-! ### Writing one register -/

section
variable (s : State) (b : Byte) (i : Nat)

theorem bodyByte_takeBodyByte : bodyByte (takeBodyByte b s) i = bodyByte s i := by
  apply bodyByte_congr <;> simp

variable {k : Nat}

theorem bodyByte_setTsLane (hk : k < 8) :
    bodyByte { s with ts := setTsLane s.ts k b } i = if i = k then b else bodyByte s i := by
  by_cases hi : i < 8
  · simp [bodyByte, hi, tsLane_setTsLane _ _ hi]
  · simp [bodyByte, hi, show i ≠ k by omega, readPB]

theorem bodyByte_pbInsert (hk : 8 ≤ k) (hlen : k + 4 < s.len.toNat) :
    bodyByte { s with pb := pbInsert s.pb (k - 8) b } i = if i = k then b else bodyByte s i := by
  by_cases hik : i = k
  · rw [hik, if_pos rfl]
    exact (bodyByte_param (s := withPB (pbInsert s.pb (k - 8) b) s) hk hlen).trans (readPB_pbInsert_same ..)
  · by_cases hi : i < 8
    · rw [if_neg hik, bodyByte_of_lt_eight hi, bodyByte_of_lt_eight hi]
    · simp [bodyByte, hi, hik, readPB, pbLookup_pbInsert_ne _ _ (show i - 8 ≠ k - 8 by omega)]

theorem bodyByte_setMtype (hk : 8 ≤ k) (hlen : k + 4 = s.len.toNat) :
    bodyByte { s with mtype := b } i = if i = k then b else bodyByte s i := by
  by_cases hik : i = k
  · rw [hik, if_pos rfl]
    exact bodyByte_mtype hk hlen
  · simp [bodyByte, hik, ← hlen, readPB]

theorem bodyByte_setStat (hk : 8 ≤ k) (hlen : k + 3 = s.len.toNat) :
    bodyByte { s with stat := b } i = if i = k then b else bodyByte s i := by
  by_cases hik : i = k
  · rw [hik, if_pos rfl]
    exact bodyByte_stat hk hlen
  · simp [bodyByte, hik, ← hlen, readPB]

theorem bodyByte_setLoopc (hk : 8 ≤ k) (hlen : k + 2 = s.len.toNat) :
    bodyByte { s with loopc := b } i = if i = k then b else bodyByte s i := by
  by_cases hik : i = k
  · rw [hik, if_pos rfl]
    exact bodyByte_loopc hk hlen
  · simp [bodyByte, hik, ← hlen, readPB]

/-- The checksum byte is none of the body bytes that `sum` covers. -/
theorem bodyByte_setRxchk (st : St) (hlen : i + 1 < s.len.toNat) :
    bodyByte { s with rxchk := b, st := st } i = bodyByte s i := by
  have hcovered : i + 4 < s.len.toNat ∨ i + 4 = s.len.toNat ∨ i + 3 = s.len.toNat ∨ i + 2 = s.len.toNat := by omega
  obtain h | h | h | h := hcovered <;> simp [bodyByte, readPB, h]

end

/-! ### Receiving body bytes -/

/-- `t` is `s` after the body bytes `bs` (spec/42_payload.md R147): they stand in the registers at the offsets from
`off` on, the bytes before them are kept, and `sum` covers them. -/
structure ReceivesBody (bs : List Byte) (s t : State) : Prop where
  st : t.st = s.st
  len : t.len = s.len
  off : t.off.toNat = s.off.toNat + bs.length
  sum : t.sum = s.sum + BitVec.ofNat 8 (byteSum bs)
  kept : ∀ i, i < s.off.toNat → bodyByte t i = bodyByte s i
  taken : ∀ i b, bs[i]? = some b → bodyByte t (s.off.toNat + i) = b

/-- What changes only the outputs and the environment's fields receives nothing. -/
theorem ReceivesBody.nil (s : State) (o : Outputs) (is : List Inputs) (n : Nat) :
    ReceivesBody [] s { s with out := o, inputs := is, draws := n } where
  st := rfl
  len := rfl
  off := rfl
  sum := (BitVec.add_zero _).symm
  kept _ _ := bodyByte_congr rfl rfl rfl rfl rfl rfl rfl _
  taken _ _ h := by simp at h

theorem ReceivesBody.append {as bs : List Byte} {s t u : State} (hst : ReceivesBody as s t)
    (htu : ReceivesBody bs t u) : ReceivesBody (as ++ bs) s u where
  st := htu.st.trans hst.st
  len := htu.len.trans hst.len
  off := by rw [htu.off, hst.off, List.length_append, Nat.add_assoc]
  sum := by rw [htu.sum, hst.sum, byteSum_append, BitVec.ofNat_add, BitVec.add_assoc]
  kept i hi := by
    have hi' : i < t.off.toNat := by rw [hst.off]; omega
    rw [htu.kept i hi', hst.kept i hi]
  taken i b hib := by
    by_cases hi : i < as.length
    case pos =>
      rw [List.getElem?_append_left hi] at hib
      rw [htu.kept _ (by rw [hst.off]; omega), hst.taken i b hib]
    case neg =>
      rw [List.getElem?_append_right (by omega)] at hib
      have h := htu.taken _ b hib
      rwa [hst.off, show s.off.toNat + as.length + (i - as.length) = s.off.toNat + i by omega] at h

/-- One byte, put into its own register in `u` and then counted by `takeBodyByte`. -/
theorem receivesBody_takeBodyByte {s u : State} {b : Byte} (hst : u.st = s.st) (hlen : u.len = s.len)
    (hoff : u.off = s.off) (hsum : u.sum = s.sum) (hroom : s.off.toNat + 1 < s.len.toNat)
    (hbyte : ∀ i, bodyByte u i = if i = s.off.toNat then b else bodyByte s i) :
    ReceivesBody [b] s (takeBodyByte b u) where
  st := hst
  len := hlen
  off := by
    have := s.len.isLt
    simp [hoff, BitVec.toNat_add]
    omega
  sum := by simp [hsum, sumAdd, byteSum]
  kept i hi := by rw [bodyByte_takeBodyByte, hbyte, if_neg (by omega)]
  taken i c hc := by
    obtain ⟨rfl, rfl⟩ : i = 0 ∧ b = c := by
      cases i <;> simp_all
    rw [bodyByte_takeBodyByte, hbyte, if_pos (by simp)]

/-- spec/42_payload.md R140 to R144 in one: at its own place each of these operations receives its byte. -/
theorem exec_receivesBody {s : State} {i : Instr} {b : Byte} (hop : i.bodyOperand = some b) (hsel : selectedAt s i)
    (hok : lengthOk s.len = true) :
    ∃ t, exec i s = .next t ∧ ReceivesBody [b] s t ∧ t.inputs = s.inputs ∧
      t.out = { s.out with consumed := true, outcome := none } := by
  have hlt := s.len.isLt
  have hmod := ((lengthOk_iff _).mp hok).1
  match i, hop with
  | .tsByte b, rfl =>
    obtain ⟨-, hlen, hoff⟩ := hsel
    exact ⟨_, if_pos hoff, receivesBody_takeBodyByte rfl rfl rfl rfl (by omega)
      (bodyByte_setTsLane s b · hoff), rfl, rfl⟩
  | .paramByte b, rfl =>
    obtain ⟨-, hoff, hlen⟩ := hsel
    have haddr : (s.off - 8).toNat = s.off.toNat - 8 := toNat_sub_eight hoff
    have hpb : s.off.toNat - 8 < Config.pbSize := by simp only [Config.pbSize]; omega
    refine ⟨takeBodyByte b (withPB (pbInsert s.pb (s.off.toNat - 8) b) s), ?_,
      receivesBody_takeBodyByte rfl rfl rfl rfl (by omega) (bodyByte_pbInsert s b · hoff hlen), rfl, rfl⟩
    simp only [exec, execParamByte, haddr, memWrite_of_lt b s hpb]
  | .mtypeByte b, rfl =>
    obtain ⟨-, hoff, hlen⟩ := hsel
    exact ⟨_, rfl, receivesBody_takeBodyByte rfl rfl rfl rfl (by omega) (bodyByte_setMtype s b · hoff hlen), rfl, rfl⟩
  | .statusByte b, rfl =>
    obtain ⟨-, hoff, hlen⟩ := hsel
    exact ⟨_, rfl, receivesBody_takeBodyByte rfl rfl rfl rfl (by omega) (bodyByte_setStat s b · hoff hlen), rfl, rfl⟩
  | .loopcByte b, rfl =>
    obtain ⟨-, hoff, hlen⟩ := hsel
    exact ⟨_, rfl, receivesBody_takeBodyByte rfl rfl rfl rfl (by omega) (bodyByte_setLoopc s b · hoff hlen), rfl, rfl⟩

end Sys2Proof.Machine

/-! SUPPORT. The invariant of spec/10_state.md R35: what it asks in each state, and the steps that keep it. -/

namespace Sys2Proof.Machine

/-- In IDLE, SYNC, STOPPED and CLOSED the invariant asks nothing of the frame's registers. -/
theorem frameInv_outsideFrame {t : State} (hst : t.st = .idle ∨ t.st = .sync ∨ t.st = .stopped ∨ t.st = .closed)
    (hoff : t.off.toNat < 65532) (hpb : pbWf t.pb = true) : FrameInv t := by
  obtain h | h | h | h := hst <;> exact ⟨by simp [h], by simp [h], by simp [h], by simp [h], hoff, hpb⟩

theorem frameInv_length {t : State} (hst : t.st = .length) (hoff : t.off = 0 ∨ t.off = 1)
    (hpb : pbWf t.pb = true) : FrameInv t where
  notReserved := by simp [hst]
  lengthOff _ := hoff
  payload := by simp [hst]
  validate := by simp [hst]
  offBound := by obtain h | h := hoff <;> simp [h]
  buffer := hpb

/-- The bound (e) of R35 follows from a well-formed length. -/
theorem off_bound {off len : Half} (hok : lengthOk len = true) (hoff : off.toNat < len.toNat) : off.toNat < 65532 := by
  have hmod := ((lengthOk_iff len).mp hok).1
  have := len.isLt
  omega

theorem frameInv_payload {t : State} (hst : t.st = .payload) (hok : lengthOk t.len = true)
    (hoff : t.off.toNat < t.len.toNat) (hsum : t.sum = bodySum t t.off.toNat) (hpb : pbWf t.pb = true) :
    FrameInv t where
  notReserved := by simp [hst]
  lengthOff := by simp [hst]
  payload _ := ⟨hok, hoff, hsum⟩
  validate := by simp [hst]
  offBound := off_bound hok hoff
  buffer := hpb

theorem frameInv_validate {t : State} (hst : t.st = .validate) (hok : lengthOk t.len = true)
    (hoff : t.off.toNat + 1 = t.len.toNat) (hsum : t.sum = bodySum t t.off.toNat) (hpb : pbWf t.pb = true) :
    FrameInv t where
  notReserved := by simp [hst]
  lengthOff := by simp [hst]
  payload := by simp [hst]
  validate _ := ⟨hok, hoff, by rw [hsum, ← hoff, Nat.add_sub_cancel]⟩
  offBound := off_bound hok (by omega)
  buffer := hpb

/-- The invariant looks at neither the outputs nor the environment's fields. -/
theorem FrameInv.withOutputs {s : State} (hs : FrameInv s) (o : Outputs) (is : List Inputs) (n : Nat) :
    FrameInv { s with out := o, inputs := is, draws := n } := by
  have hsum : ∀ k, bodySum { s with out := o, inputs := is, draws := n } k = bodySum s k := fun k =>
    bodySum_congr (s := { s with out := o, inputs := is, draws := n }) (t := s) rfl k fun _ _ => rfl
  exact ⟨hs.notReserved, hs.lengthOff, by simpa only [hsum] using hs.payload,
    by simpa only [hsum] using hs.validate, hs.offBound, hs.buffer⟩

theorem FrameInv.beginStep {s : State} (hs : FrameInv s) : FrameInv (beginStep s) := by
  rw [beginStep_eq]
  exact hs.withOutputs ..

theorem bodySum_setRxchk {s : State} {n : Nat} (b : Byte) (st : St) (hn : n < s.len.toNat) :
    bodySum { s with rxchk := b, st := st } n = bodySum s n :=
  bodySum_congr (s := { s with rxchk := b, st := st }) (t := s) rfl n fun i hi => bodyByte_setRxchk s b i st (by omega)

/-- A body byte that is not the last keeps the invariant. -/
theorem FrameInv.receivesBody {s t : State} {b : Byte} (hs : FrameInv s) (hst : s.st = .payload)
    (hroom : s.off.toNat + 1 < s.len.toNat) (hb : ReceivesBody [b] s t) (hpb : pbWf t.pb = true) : FrameInv t := by
  obtain ⟨hok, -, hsum⟩ := hs.payload hst
  have hoff : t.off.toNat = s.off.toNat + 1 := hb.off
  refine frameInv_payload (hb.st.trans hst) (by rwa [hb.len]) (by rwa [hoff, hb.len]) ?_ hpb
  have hkept : bodySum t s.off.toNat = bodySum s s.off.toNat := bodySum_congr hb.len _ hb.kept
  have htaken : bodyByte t s.off.toNat = b := hb.taken 0 b rfl
  rw [hoff, bodySum, hkept, htaken, hb.sum, hsum]
  simp [byteSum]

/-- Where a body byte is received, a further byte is still to come. -/
theorem room_of_bodyOperand {s : State} {i : Instr} {b : Byte} (hop : i.bodyOperand = some b) (hsel : selectedAt s i) :
    s.st = .payload ∧ s.off.toNat + 1 < s.len.toNat := by
  match i, hop with
  | .tsByte _, _ | .paramByte _, _ | .mtypeByte _, _ | .statusByte _, _ | .loopcByte _, _ =>
    exact ⟨hsel.1, by have := hsel.2; omega⟩

/-- Every operation, at its own place of the frame, keeps the invariant. -/
theorem exec_keeps_frameInv {i : Instr} {s t : State} (hs : FrameInv s) (hsel : selectedAt s i)
    (h : exec i s = .next t) : FrameInv t := by
  obtain ⟨-, -, -, -, -, hform, -⟩ := exec_frame h
  have hpb := hform hs.buffer
  cases hop : i.bodyOperand
  case some b =>
    obtain ⟨hst, hroom⟩ := room_of_bodyOperand hop hsel
    obtain ⟨u, hu, hbody, -⟩ := exec_receivesBody hop hsel (hs.payload hst).1
    obtain rfl : u = t := by rw [hu] at h; injection h
    exact hs.receivesBody hst hroom hbody hpb
  case none =>
    cases i
    case reset => cases h; exact frameInv_outsideFrame (.inl rfl) (show (0 : Half).toNat < 65532 by decide) hpb
    case reservedState | unreachable => cases h
    case haltStopped | haltClosed | nop => cases h; exact hs.withOutputs ..
    case close | stop | timeoutIdle | timeoutSync | timeoutLength | timeoutPayload =>
      cases h
      exact frameInv_outsideFrame (by simp) hs.offBound hpb
    case validate =>
      simp only [exec, execValidate] at h
      split at h <;> cases h <;> exact frameInv_outsideFrame (.inl rfl) hs.offBound hpb
    case hdr1Scan b =>
      cases h
      refine frameInv_outsideFrame ?_ hs.offBound hpb
      by_cases hb : b = Config.hdr1 <;> simp [hb]
    case hdr2Match b =>
      simp only [exec, execHdr2Match] at h
      split at h <;> cases h
      · exact frameInv_length rfl (.inl rfl) hpb
      · exact frameInv_outsideFrame (.inl rfl) hs.offBound hpb
    case lenLo b =>
      cases h
      exact frameInv_length hsel.1 (.inr rfl) hpb
    case lenHi b =>
      simp only [exec, execLenHi] at h
      split at h <;> cases h
      case isTrue hok => exact frameInv_payload rfl hok (by have := (lengthOk_iff _).mp hok; simp; omega) rfl hpb
      case isFalse => exact frameInv_outsideFrame (.inl rfl) hs.offBound hpb
    case chkByte b =>
      obtain ⟨hst, -, hlast⟩ := hsel
      obtain ⟨hok, -, hsum⟩ := hs.payload hst
      cases h
      have hsum' := bodySum_setRxchk b .validate (show s.off.toNat < s.len.toNat by omega)
      exact (frameInv_validate (t := { s with rxchk := b, st := .validate }) rfl hok hlast (hsum.trans hsum'.symm)
        hpb).withOutputs ..
    all_goals cases hop

/-- Settles O8: the selected operation stands at its own place of the frame, and there it keeps R35. -/
theorem stepKeepsFrameState : Obligations.StepKeepsFrameState := by
  unfold Obligations.StepKeepsFrameState
  intro s t hs hstep
  rw [step_eq] at hstep
  exact exec_keeps_frameInv hs.beginStep (selectedAt_beginStep.mpr (selectedAt_fetch s)) hstep

/-- Settles O9: reset leaves IDLE with `off` 0 and nothing listed in PB. -/
theorem resetHasFrameState : Obligations.ResetHasFrameState :=
  frameInv_outsideFrame (.inl rfl) (by decide) pbWf_reset

end Sys2Proof.Machine

/-! SUPPORT. Runs over the body of a frame: quiet steps, the step of one body byte, and all the bytes that are offered
before the last (spec/42_payload.md R147). -/

namespace Sys2Proof.Machine

/-! ### Quiet steps (spec/44_control.md R196) -/

theorem isQuiet_quietToken (d : Byte) : isQuiet (quietToken d) := ⟨⟨rfl, rfl, rfl⟩, rfl, rfl⟩

theorem fetch_quiet {s : State} (hst : isReceiving s.st = true) (hq : isQuiet (currentInputs s)) : fetch s = .nop := by
  obtain ⟨⟨hrst, hclosed, hstop⟩, hvalid, htimeout⟩ := hq
  rw [fetch_eq]
  cases h : s.st <;> simp_all [priorityChoice, isReceiving]

theorem step_quiet {s : State} {i : Inputs} {rest : List Inputs} (hst : isReceiving s.st = true) (hq : isQuiet i)
    (hin : s.inputs = i :: rest) :
    step s = .next { s with
      inputs := rest
      out := { stOut := s.st, inReady := inReady s, consumed := false, outcome := none } } := by
  have hcur := currentInputs_cons hin
  rw [step_eq, fetch_quiet hst (hcur ▸ hq), beginStep_cons hin]
  rfl

/-- Any number of quiet steps leaves the block as it is. -/
theorem trace_quiet : ∀ (ds : List Byte) (rest : List Inputs) (s : State), isReceiving s.st = true →
    s.inputs = ds.map quietToken ++ rest →
    ∃ outs t, trace ds.length s = some (outs, t) ∧ emitted outs = [] ∧ consumedCount outs = 0 ∧
      t = { s with inputs := rest, out := t.out }
  | [], rest, s, _, hin => ⟨[], s, rfl, rfl, rfl, by simp at hin; simp [← hin]⟩
  | d :: ds, rest, s, hst, hin => by
    have hstep := step_quiet hst (isQuiet_quietToken d) hin
    obtain ⟨outs, t, hrun, hem, hcon, ht⟩ := trace_quiet ds rest
      { s with inputs := ds.map quietToken ++ rest, out := ⟨s.st, inReady s, false, none⟩ } hst rfl
    exact ⟨_, t, trace_succ hstep hrun, by simp [hem], by simp [hcon], ht⟩

/-! ### Body bytes -/

/-- Before the last body byte, an offered byte selects an operation that receives it. -/
theorem fetch_bodyOperand {s : State} {b : Byte} (hst : s.st = .payload) (hok : lengthOk s.len = true)
    (hroom : s.off.toNat + 1 < s.len.toNat) (hb : offersByte (currentInputs s) b) :
    (fetch s).bodyOperand = some b := by
  obtain ⟨⟨hrst, hclosed, hstop⟩, hvalid, rfl⟩ := hb
  have hrows := bodySelect_rows ((lengthOk_iff _).mp hok).2 (show s.off.toNat < s.len.toNat by omega)
  rw [fetch_eq, hst]
  obtain h | h | h | h | h | h := hrows
  all_goals simp [priorityChoice, fsel, Instr.bodyOperand, h, hrst, hclosed, hstop, hvalid]
  omega

theorem step_bodyByte {s : State} {b : Byte} {rest : List Inputs} (hst : s.st = .payload) (hok : lengthOk s.len = true)
    (hroom : s.off.toNat + 1 < s.len.toNat) (hin : s.inputs = byteToken b :: rest) :
    ∃ t, step s = .next t ∧ ReceivesBody [b] s t ∧ t.inputs = rest ∧ t.out.consumed = true ∧ t.out.outcome = none := by
  have hcur : offersByte (currentInputs s) b := by
    rw [currentInputs_cons hin]
    exact byteToken_offers b
  have hsel := selectedAt_beginStep.mpr (selectedAt_fetch s)
  obtain ⟨t, ht, hbody, hinputs, hout⟩ :=
    exec_receivesBody (fetch_bodyOperand hst hok hroom hcur) hsel (by rwa [beginStep_len])
  have hstart : ReceivesBody [] s (beginStep s) := beginStep_eq s ▸ ReceivesBody.nil s ..
  exact ⟨t, ht, hstart.append hbody, by simp [hinputs, hin], by simp [hout], by simp [hout]⟩

/-- The bytes offered before the last one of the body, with any quiet steps between them, are received. -/
theorem trace_offered_body : ∀ (bs : List Byte) (gaps : List (List Byte)) (rest : List Inputs) (s : State),
    s.st = .payload → lengthOk s.len = true → s.off.toNat + bs.length < s.len.toNat →
    s.inputs = offered bs gaps ++ rest →
    ∃ outs t, trace (offered bs gaps).length s = some (outs, t) ∧ emitted outs = [] ∧ consumedCount outs = bs.length ∧
      t.inputs = rest ∧ ReceivesBody bs s t
  | [], gaps, rest, s, _, _, _, hin =>
    ⟨[], s, by simp [offered, trace], rfl, rfl, by simpa [offered] using hin, .nil s ..⟩
  | b :: bs, gaps, rest, s, hst, hok, hroom, hin => by
    rw [offered_cons, List.append_assoc, List.cons_append] at hin
    rw [List.length_cons] at hroom
    obtain ⟨outs₁, u, hrun₁, hem₁, hcon₁, hu⟩ := trace_quiet _ _ s (by simp [hst, isReceiving]) hin
    have hquiet : ReceivesBody [] s u := by rw [hu]; exact .nil s ..
    have huoff : u.off = s.off := by rw [hu]
    obtain ⟨v, hstep, hbyte, hinv, hconv, houtv⟩ := step_bodyByte (b := b) (rest := offered bs gaps.tail ++ rest)
      (hquiet.st.trans hst) (by rwa [hquiet.len]) (by rw [hquiet.len, huoff]; omega) (by rw [hu])
    obtain ⟨outs₂, t, hrun₂, hem₂, hcon₂, hrest, hbody⟩ := trace_offered_body bs gaps.tail rest v
      (by rw [hbyte.st, hquiet.st, hst]) (by rwa [hbyte.len, hquiet.len])
      (by rw [hbyte.len, hquiet.len, hbyte.off, huoff]; simp; omega) hinv
    refine ⟨outs₁ ++ v.out :: outs₂, t, ?_, by simp [hem₁, hem₂, houtv], ?_, hrest, (hquiet.append hbyte).append hbody⟩
    · rw [offered_cons, List.length_append, List.length_map, List.length_cons]
      exact trace_append hrun₁ (trace_succ hstep hrun₂)
    · simp [hcon₁, hcon₂, hconv]; omega

/-- Settles O47: the run receives the bytes from offset 0 on, and each offset has its register. -/
theorem bodyHoldsReceivedBytes : Obligations.BodyHoldsReceivedBytes := by
  unfold Obligations.BodyHoldsReceivedBytes
  intro bs gaps rest s hst hoff hok hsum hroom hin
  have hzero : s.off.toNat = 0 := by simp [hoff]
  have hlen := ((lengthOk_iff _).mp hok).2
  obtain ⟨outs, t, hrun, hem, hcon, hrest, hbody⟩ := trace_offered_body bs gaps rest s hst hok (by omega) hin
  have hcount : t.off.toNat = bs.length := by rw [hbody.off, hzero, Nat.zero_add]
  refine ⟨outs, t, hrun, hem, hcon, hbody.st.trans hst, hcount, hbody.len, hrest, ?_, ?_⟩
  · rw [hbody.sum, hsum, BitVec.ofNat_add, ← BitVec.ofNat_toNat]
  · intro i b hib
    have hb : bodyByte t i = b := by
      simpa only [hzero, Nat.zero_add] using hbody.taken i b hib
    rw [← hbody.len] at hlen ⊢
    exact ⟨fun h => (bodyByte_of_lt_eight h).symm.trans hb, fun h h' => (bodyByte_param h h').symm.trans hb,
      fun h => (bodyByte_mtype (by omega) h).symm.trans hb, fun h => (bodyByte_stat (by omega) h).symm.trans hb,
      fun h => (bodyByte_loopc (by omega) h).symm.trans hb⟩

end Sys2Proof.Machine

/-! SUPPORT. The parameter buffer PB in a step (spec/20_memory.md R51, R52), and the VALIDATE step that follows a frame's
checksum byte (R57 (d), spec/43_validate.md R173). -/

namespace Sys2Proof.Machine

/-! ### PB in a step (spec/20_memory.md R51) -/

/-- Settles O11: sampling the inputs leaves PB as it is, and every operation keeps its form. -/
theorem stepKeepsBufferForm : Obligations.StepKeepsBufferForm := by
  unfold Obligations.StepKeepsBufferForm
  intro s t hform hstep
  rw [step_eq] at hstep
  obtain ⟨-, -, -, -, -, hkeeps, -⟩ := exec_frame hstep
  exact hkeeps (by rwa [beginStep_pb])

/-- Settles O12: such a step leaves the whole list of written bytes as it is, and a read looks at nothing else. -/
theorem onlyParamByteWritesBuffer : Obligations.OnlyParamByteWritesBuffer := by
  unfold Obligations.OnlyParamByteWritesBuffer
  intro s t hstep hother a
  rw [step_eq] at hstep
  obtain ⟨-, -, -, -, -, -, hsame⟩ := exec_frame hstep
  exact readPB_congr ((hsame hother).trans (beginStep_pb s)) a

/-! ### A parameter's four bytes (spec/20_memory.md R52) -/

theorem toNat_append_byte {w : Nat} (x : BitVec w) (b : Byte) : (x ++ b).toNat = 256 * x.toNat + b.toNat := by
  rw [BitVec.toNat_append, ← Nat.shiftLeft_add_eq_or_of_lt b.isLt, Nat.shiftLeft_eq, Nat.mul_comm]

/-- Settles O24: both words are the number `MemRead(4k, 4)`, which four bytes keep below 2^32. -/
theorem parameterWordsLittleEndian : Obligations.ParameterWordsLittleEndian := by
  unfold Obligations.ParameterWordsLittleEndian
  intro s k
  apply BitVec.eq_of_toNat_eq
  have h0 := (readPB s (4 * k)).isLt
  have h1 := (readPB s (4 * k + 1)).isLt
  have h2 := (readPB s (4 * k + 2)).isLt
  have h3 := (readPB s (4 * k + 3)).isLt
  simp only [paramWord, BitVec.toNat_ofNat, memRead_four, toNat_append_byte]
  omega

/-! ### From the checksum byte to the outcome (spec/42_payload.md R145, spec/43_validate.md R173) -/

/-- What VALIDATE reads of a CHK_BYTE step. -/
theorem step_chkByte {s t : State} {b : Byte} (hstep : step s = .next t) (hfetch : fetch s = .chkByte b) :
    t.st = .validate ∧ t.len = s.len ∧ t.sum = s.sum ∧ t.rxchk = b := by
  rw [step_eq, hfetch] at hstep
  cases hstep
  simp

theorem fetch_validate {s : State} (hst : s.st = .validate) (hrst : (currentInputs s).rst = false) :
    fetch s = .validate := by
  simp [fetch_eq, hst, priorityChoice, hrst]

theorem checksumMatches_iff (s : State) : checksumMatches s = true ↔ s.sum = s.rxchk := beq_iff_eq

/-- VALIDATE where the comparison succeeds. -/
theorem exec_validate_match {s : State} (h : s.sum = s.rxchk) :
    exec .validate s = .next (finish false (some (.record (currentRecord s))) (goTo .idle s)) :=
  if_pos ((checksumMatches_iff s).mpr h)

/-- VALIDATE where the comparison fails. -/
theorem exec_validate_mismatch {s : State} (h : s.sum ≠ s.rxchk) :
    exec .validate s = .next (raiseError false (.checksumMismatch s.len s.sum s.rxchk) s) :=
  if_neg ((checksumMatches_iff s).not.mpr h)

/-- Settles O28: the checksum byte leaves the block in VALIDATE, whose step compares it with the sum of before. -/
theorem outcomeFollowsChecksumByte : Obligations.OutcomeFollowsChecksumByte := by
  unfold Obligations.OutcomeFollowsChecksumByte
  intro s t b hstep hfetch hrst
  obtain ⟨hst, hlen, hsum, hrxchk⟩ := step_chkByte hstep hfetch
  rw [step_eq, fetch_validate hst hrst, ← hlen, ← hsum, ← hrxchk]
  by_cases hmatch : t.sum = t.rxchk
  · exact ⟨_, exec_validate_match (by simpa using hmatch), rfl, rfl, .inl ⟨hmatch, _, rfl⟩⟩
  · exact ⟨_, exec_validate_mismatch (by simpa using hmatch), rfl, rfl, .inr ⟨hmatch, by simp⟩⟩

end Sys2Proof.Machine

/-! SUPPORT. The image decoder and the operation map as an encoding: every instruction, every select word and every list
of bytes (spec/30_encoding.md R74; log entry 10). -/

namespace Sys2Proof

/-- The first-match choice is the operation of a row that the select word fits, wherever some row fits. -/
theorem exists_fits_firstFit {rows : List Row} {sel : SelectWord} (b : Byte) (h : ∃ row ∈ rows, row.fits sel = true) :
    ∃ row ∈ rows, row.op b = firstFit rows sel b ∧ row.fits sel = true := by
  induction rows with
  | nil => simp at h
  | cons r rows ih =>
    cases hr : r.fits sel
    case true => exact ⟨r, by simp, by simp [firstFit, hr], hr⟩
    case false =>
      obtain ⟨row, hmem, hop, hfits⟩ := ih (by simpa [hr] using h)
      exact ⟨row, by simp [hmem], by simp [firstFit, hr, hop], hfits⟩

/-- The operation map's last row fits every select word. -/
theorem exists_fits_operationMap (sel : SelectWord) : ∃ row ∈ operationMap, row.fits sel = true :=
  ⟨⟨0, 0, fun _ => .unreachable⟩, by simp [operationMap], by simp [Row.fits]⟩

/-- Each row fits the select word that encodes its own operation. -/
theorem fits_selectWord_op (b : Byte) : ∀ row ∈ operationMap, row.fits (row.op b).selectWord = true := by
  simp [operationMap, Row.fits, Instr.selectWord]

/-- No row before an instruction's own takes the select word that encodes it. -/
theorem decodeSelect_selectWord (i : Instr) : decodeSelect i.selectWord (i.operand.getD 0) = i := by
  cases i <;> simp [decodeSelect, firstFit, operationMap, Row.fits, Instr.selectWord, Instr.operand]

/-- Settles O2: the image carries the select word and the operand, and each decoded operation is that of a row which
fits both words. -/
theorem encodeThenDecode : Obligations.EncodeThenDecode := by
  unfold Obligations.EncodeThenDecode
  constructor
  · intro i rest
    rw [encode, decodeImage_imageOf_append, decodeSelect_selectWord]
  · intro sel b
    obtain ⟨row, hrow, hop, hfits⟩ := exists_fits_firstFit b (exists_fits_operationMap sel)
    refine ⟨row, hrow, hop, hfits, ?_⟩
    rw [decodeSelect, ← hop]
    exact fits_selectWord_op b row hrow

/-- The five bits above the select word are 0 in the bytes below 8. -/
theorem high_masked_iff (hi : Byte) : hi &&& 0xF8 = 0 ↔ hi.toNat < 8 := by
  revert hi
  decide

end Sys2Proof

namespace Sys2Proof.Machine

theorem selectOfBytes_eq_ofNat (lo hi : Byte) :
    selectOfBytes lo hi = BitVec.ofNat 11 (lo.toNat + 256 * hi.toNat) := by
  apply BitVec.eq_of_toNat_eq
  rw [selectOfBytes, BitVec.toNat_setWidth, toNat_append_byte, BitVec.toNat_ofNat, Nat.add_comm]

/-- Settles O3: the decoder's own match on the list of bytes. -/
theorem imageDecodesExactly : Obligations.ImageDecodesExactly := by
  unfold Obligations.ImageDecodesExactly
  intro bytes i rest
  match bytes with
  | [] | [_] | [_, _] => simp [decodeImage]
  | lo :: hi :: b :: tail =>
    by_cases hhi : hi.toNat < 8
    case pos =>
      simp only [decodeImage, if_pos ((high_masked_iff hi).mpr hhi), selectOfBytes_eq_ofNat, Except.ok.injEq,
        Prod.mk.injEq, List.cons.injEq]
      constructor
      · rintro ⟨rfl, rfl⟩
        exact ⟨lo, hi, b, ⟨rfl, rfl, rfl, rfl⟩, hhi, rfl⟩
      · rintro ⟨lo, hi, b, ⟨rfl, rfl, rfl, rfl⟩, -, rfl⟩
        exact ⟨rfl, rfl⟩
    case neg =>
      simp only [decodeImage, if_neg ((high_masked_iff hi).not.mpr hhi), reduceCtorEq, false_iff, List.cons.injEq]
      rintro ⟨lo, hi, b, ⟨rfl, rfl, rfl, rfl⟩, hlt, -⟩
      exact hhi hlt

/-- Settles O1: the eleven words, decoded one by one. -/
theorem writtenWordsDecode : Obligations.WrittenWordsDecode :=
  ⟨rfl, rfl, rfl, rfl, rfl, rfl, rfl, rfl, rfl, rfl, rfl⟩

end Sys2Proof.Machine

/-! SUPPORT. Which steps consume, and which fault: the operation selected against `in_valid` and `in_ready`
(spec/30_encoding.md R75), and the two reserved rows (R76 (a)). -/

namespace Sys2Proof.Machine

/-! ### The handshake (spec/30_encoding.md R75, spec/10_state.md R21) -/

theorem inReady_iff (s : State) :
    inReady s = true ↔ undisturbed (currentInputs s) ∧ isReceiving s.st = true := by
  simp [inReady, undisturbed, and_assoc]

theorem isReceiving_iff (st : St) :
    isReceiving st = true ↔ st = .idle ∨ st = .sync ∨ st = .length ∨ st = .payload := by
  cases st <;> simp [isReceiving]

/-- A byte operation is selected only where a byte is offered and can be taken. -/
theorem valid_ready_of_consumes {s : State} (h : (fetch s).consumes = true) :
    (currentInputs s).inValid = true ∧ inReady s = true := by
  rw [inReady_iff, undisturbed]
  rw [fetch_eq] at h
  cases hst : s.st <;> simp only [hst, priorityChoice] at h <;> split_ifs at h <;>
    simp_all [Instr.consumes, Instr.operand, isReceiving]

/-- Where a byte is offered and can be taken, the operation is a byte operation or the last row. -/
theorem consumes_of_valid_ready {s : State} (hvalid : (currentInputs s).inValid = true) (hready : inReady s = true) :
    (fetch s).consumes = true ∨ fetch s = .unreachable := by
  obtain ⟨⟨hrst, hclosed, hstop⟩, hreceiving⟩ := (inReady_iff s).mp hready
  rw [fetch_eq]
  obtain hst | hst | hst | hst := (isReceiving_iff s.st).mp hreceiving <;>
    simp only [hst, priorityChoice, hrst, hclosed, hstop, hvalid, if_true, Bool.false_eq_true, if_false]
  case inr.inr.inl | inr.inr.inr => split_ifs <;> simp [Instr.consumes, Instr.operand]
  all_goals exact .inl rfl

theorem consumes_fetch {s : State} (h : fetch s ≠ .unreachable) :
    (fetch s).consumes = ((currentInputs s).inValid && inReady s) := by
  rw [Bool.eq_iff_iff, Bool.and_eq_true]
  exact ⟨valid_ready_of_consumes, fun ⟨hvalid, hready⟩ => (consumes_of_valid_ready hvalid hready).resolve_right h⟩

/-- R35's places are not those of the two reserved rows. -/
theorem FrameInv.wellFormed {s : State} {i : Instr} (hs : FrameInv s) (hsel : selectedAt s i) :
    i.wellFormed = true := by
  cases i
  case reservedState => exact absurd hsel hs.notReserved
  case unreachable =>
    obtain ⟨hst, h0, h1⟩ | ⟨hst, hoff⟩ := hsel
    · exact absurd (hs.lengthOff hst) (not_or.mpr ⟨h0, h1⟩)
    · obtain ⟨hok, hlt, -⟩ := hs.payload hst
      have := ((lengthOk_iff _).mp hok).2
      omega
  all_goals rfl

theorem FrameInv.fetch_wellFormed {s : State} (hs : FrameInv s) : (fetch s).wellFormed = true :=
  hs.wellFormed (selectedAt_fetch s)

theorem ne_unreachable_of_wellFormed {i : Instr} (h : i.wellFormed = true) : i ≠ .unreachable := by
  rintro rfl
  cases h

/-- Settles O7: `consumed` is the map's column, which only the last row sets apart from `in_valid` and `in_ready`; that
row gives no next state, and R35 never selects it. -/
theorem consumedIffValidAndReady : Obligations.ConsumedIffValidAndReady := by
  unfold Obligations.ConsumedIffValidAndReady
  refine ⟨fun s t hstep => ?_, fun s => valid_ready_of_consumes, fun s hs hvalid hready => ?_⟩
  · rw [step_eq] at hstep
    have hreach : fetch s ≠ .unreachable := by
      intro h
      rw [h] at hstep
      cases hstep
    obtain ⟨hready, hstOut, hconsumed, -⟩ := exec_frame hstep
    rw [beginStep_out] at hready hstOut
    rw [hconsumed, hready, ← isReceiving_iff]
    exact ⟨consumes_fetch hreach, rfl, inReady_iff s, hstOut⟩
  · exact (consumes_of_valid_ready hvalid hready).resolve_right (ne_unreachable_of_wellFormed hs.fetch_wellFormed)

/-! ### Faults (spec/30_encoding.md R76 (a)) -/

/-- An operation of R35's states, at its own place, gives a next state: the body bytes by `exec_receivesBody`, the other
operations everywhere. -/
theorem FrameInv.exec_next {s : State} {i : Instr} (hs : FrameInv s) (hsel : selectedAt s i) :
    ∃ t, exec i s = .next t := by
  cases hop : i.bodyOperand
  case some b =>
    obtain ⟨hst, -⟩ := room_of_bodyOperand hop hsel
    obtain ⟨t, ht, -⟩ := exec_receivesBody hop hsel (hs.payload hst).1
    exact ⟨t, ht⟩
  case none =>
    have hwf := hs.wellFormed hsel
    cases i
    case reservedState | unreachable => cases hwf
    case tsByte | paramByte | mtypeByte | statusByte | loopcByte => cases hop
    case validate => simp only [exec, execValidate]; split <;> exact ⟨_, rfl⟩
    case hdr2Match => simp only [exec, execHdr2Match]; split <;> exact ⟨_, rfl⟩
    case lenHi => simp only [exec, execLenHi]; split <;> exact ⟨_, rfl⟩
    all_goals exact ⟨_, rfl⟩

/-- Settles O10: the selected operation stands at its own place, which is not that of a reserved row. -/
theorem frameStateNeverFaults : Obligations.FrameStateNeverFaults := by
  unfold Obligations.FrameStateNeverFaults
  intro s hs
  refine ⟨hs.fetch_wellFormed, ?_⟩
  rw [step_eq]
  exact hs.beginStep.exec_next (selectedAt_beginStep.mpr (selectedAt_fetch s))

/-- Settles O39: both rows fault by their meaning, and the priority list selects them there. -/
theorem reservedRowsFault : Obligations.ReservedRowsFault := by
  unfold Obligations.ReservedRowsFault
  refine ⟨fun s => ⟨rfl, rfl⟩, fun s hst hrst => ?_, fun f i hi hvalid => ?_⟩
  · have hfetch : fetch s = .reservedState := by simp [fetch_eq, hst, priorityChoice, hrst]
    exact ⟨hfetch, by rw [step_eq, hfetch]; rfl⟩
  · obtain ⟨hrst, hclosed, hstop⟩ := hi
    simp only [decodeSelect_selectWordOf, priorityChoice, hrst, hclosed, hstop, hvalid, Bool.false_eq_true, if_false,
      if_true]
    constructor
    · intro hf
      rw [if_neg (by omega), if_neg (by omega)]
    · intro hf
      iterate 6 rw [if_neg (by omega)]

end Sys2Proof.Machine

/-! SUPPORT. The frame format (spec/30_encoding.md R70 to R73, R78): the bytes that carry a record's fields, a record read
back from them, and the layout of an encoded frame. -/

namespace Sys2Proof.Machine

/-! ### The bytes of a parameter -/

/-- A parameter is its four bytes. -/
theorem eq_of_wordByte_eq {p q : Word}
    (h : ∀ j, j < 4 → BitVec.extractLsb' (8 * j) 8 p = BitVec.extractLsb' (8 * j) 8 q) : p = q := by
  apply BitVec.eq_of_getLsbD_eq
  intro k hk
  have hbyte := congrArg (fun x : Byte => x.getLsbD (k % 8)) (h (k / 8) (by omega))
  simp only [BitVec.getLsbD_extractLsb', show k % 8 < 8 by omega, decide_true, Bool.true_and] at hbyte
  rwa [show 8 * (k / 8) + k % 8 = k by omega] at hbyte

theorem length_parameterBytes (ps : List Word) : (parameterBytes ps).length = 4 * ps.length := by
  induction ps with
  | nil => rfl
  | cons p ps ih => simp [parameterBytes, wordBytes, ih]; omega

theorem getElem?_parameterBytes {ps : List Word} {k j : Nat} {p : Word} (hp : ps[k]? = some p) (hj : j < 4) :
    (parameterBytes ps)[4 * k + j]? = some (BitVec.extractLsb' (8 * j) 8 p) := by
  induction ps generalizing k with
  | nil => simp at hp
  | cons q ps ih =>
    have hlen : (wordBytes q).length = 4 := by simp [wordBytes]
    cases k with
    | zero =>
      obtain rfl : q = p := by simpa using hp
      rw [parameterBytes, List.getElem?_append_left (by omega)]
      simp [wordBytes, hj]
    | succ k =>
      rw [parameterBytes, List.getElem?_append_right (by omega), hlen, show 4 * (k + 1) + j - 4 = 4 * k + j by omega]
      exact ih (by simpa using hp)

/-! ### The bytes that carry a record -/

theorem getElem?_append_of_eq_some {bs cs : List Byte} {i : Nat} {b : Byte} (h : bs[i]? = some b) :
    (bs ++ cs)[i]? = some b := by
  obtain ⟨hi, -⟩ := List.getElem?_eq_some_iff.mp h
  rwa [List.getElem?_append_left hi]

/-- The body bytes `bs` before the checksum carry the record at the places of spec/30_encoding.md R72. -/
structure CarriesRecord (r : Record) (bs : List Byte) : Prop where
  length : bs.length = 11 + 4 * r.params.length
  ts : ∀ i, i < 8 → bs[i]? = some (tsLane r.ts i)
  params : ∀ (k j : Nat) (p : Word), r.params[k]? = some p → j < 4 →
    bs[8 + 4 * k + j]? = some (BitVec.extractLsb' (8 * j) 8 p)
  mtype : bs[8 + 4 * r.params.length]? = some r.mtype
  stat : bs[9 + 4 * r.params.length]? = some r.stat
  loopc : bs[10 + 4 * r.params.length]? = some r.loopc

/-- The bytes carry one record only. -/
theorem CarriesRecord.unique {r r' : Record} {bs : List Byte} (h : CarriesRecord r bs) (h' : CarriesRecord r' bs) :
    r = r' := by
  have hN : r.params.length = r'.params.length := by
    have := h.length
    have := h'.length
    omega
  have hts : r.ts = r'.ts :=
    eq_of_tsLane_eq fun i hi => Option.some.inj ((h.ts i hi).symm.trans (h'.ts i hi))
  have hparams : r.params = r'.params := by
    apply List.ext_getElem hN
    intro k hk hk'
    exact eq_of_wordByte_eq fun j hj => Option.some.inj
      ((h.params k j _ (List.getElem?_eq_getElem hk) hj).symm.trans
        (h'.params k j _ (List.getElem?_eq_getElem hk') hj))
  have hmtype : r.mtype = r'.mtype := Option.some.inj (h.mtype.symm.trans (hN ▸ h'.mtype))
  have hstat : r.stat = r'.stat := Option.some.inj (h.stat.symm.trans (hN ▸ h'.stat))
  have hloopc : r.loopc = r'.loopc := Option.some.inj (h.loopc.symm.trans (hN ▸ h'.loopc))
  cases r
  cases r'
  simp_all

/-! ### Encoded frames (spec/30_encoding.md R78) -/

/-- The body bytes of a record's frame before the checksum. -/
def recordBytes (r : Record) : List Byte := timestampBytes r.ts ++ parameterBytes r.params ++ [r.mtype, r.stat, r.loopc]

/-- The two bytes of a record's length field, low first. -/
def lengthBytes (r : Record) : List Byte :=
  [BitVec.setWidth 8 (frameLength r), BitVec.setWidth 8 (frameLength r >>> 8)]

/-- The frame cut at the end of its length field. -/
def frameBytes (r : Record) : List Byte := [0xEB, 0x90] ++ lengthBytes r ++ (recordBytes r ++ [recordChecksum r])

theorem drop_frameBytes (r : Record) : (frameBytes r).drop 4 = recordBytes r ++ [recordChecksum r] := by
  simp [frameBytes, lengthBytes]

theorem recordBytes_carries (r : Record) : CarriesRecord r (recordBytes r) := by
  have hts : (timestampBytes r.ts).length = 8 := by simp [timestampBytes]
  have hps := length_parameterBytes r.params
  have hfront : (timestampBytes r.ts ++ parameterBytes r.params).length = 8 + 4 * r.params.length := by simp [hts, hps]
  have htrailer : ∀ j, (recordBytes r)[j + (8 + 4 * r.params.length)]? = [r.mtype, r.stat, r.loopc][j]? := by
    intro j
    rw [recordBytes, List.getElem?_append_right (by omega), hfront, Nat.add_sub_cancel]
  refine ⟨by simp [recordBytes, hts, hps]; omega, fun i hi => ?_, fun k j p hp hj => ?_, ?_, ?_, ?_⟩
  · rw [recordBytes, List.append_assoc, List.getElem?_append_left (by omega)]
    simp [timestampBytes, hi]
  · obtain ⟨hk, -⟩ := List.getElem?_eq_some_iff.mp hp
    rw [recordBytes, List.getElem?_append_left (by omega), List.getElem?_append_right (by omega), hts,
      show 8 + 4 * k + j - 8 = 4 * k + j by omega]
    exact getElem?_parameterBytes hp hj
  · simpa using htrailer 0
  · rw [show 9 + 4 * r.params.length = 1 + (8 + 4 * r.params.length) by omega]
    exact htrailer 1
  · rw [show 10 + 4 * r.params.length = 2 + (8 + 4 * r.params.length) by omega]
    exact htrailer 2

/-- The checksum byte as the sum that the block forms (spec/43_validate.md R170). -/
theorem recordChecksum_eq (r : Record) :
    recordChecksum r = BitVec.ofNat 8 (12 + 4 * r.params.length + byteSum (recordBytes r)) := by
  apply BitVec.eq_of_toNat_eq
  simp only [recordChecksum, checksum, frameLength, recordBytes, byteSum_append, byteSum, BitVec.toNat_ofNat]
  omega

theorem encodeFrame_eq_none_iff (r : Record) : encodeFrame r = none ↔ 16380 < r.params.length := by
  rw [encodeFrame, ite_eq_right_iff, Config.paramCap]
  simp

theorem encodeFrame_eq_some {r : Record} {f : List Byte} (h : encodeFrame r = some f) :
    r.params.length ≤ 16380 ∧ f = frameBytes r := by
  rw [encodeFrame, Option.ite_none_right_eq_some] at h
  obtain ⟨hN, hf⟩ := h
  refine ⟨hN, ?_⟩
  rw [← Option.some.inj hf]
  simp [frameFront, frameBytes, recordBytes, lengthBytes, Config.hdr1, Config.hdr2]

theorem toNat_frameLength {r : Record} (hN : r.params.length ≤ 16380) :
    (frameLength r).toNat = 12 + 4 * r.params.length := by
  rw [frameLength, BitVec.toNat_ofNat]
  omega

theorem lengthOk_frameLength {r : Record} (hN : r.params.length ≤ 16380) : lengthOk (frameLength r) = true := by
  rw [lengthOk_iff, toNat_frameLength hN]
  omega

/-- The two bytes of a length field make up the length. -/
theorem lengthBytes_append (len : Half) : (BitVec.setWidth 8 (len >>> 8) ++ BitVec.setWidth 8 len : Half) = len := by
  apply BitVec.eq_of_toNat_eq
  have := len.isLt
  rw [toNat_append_byte]
  simp only [BitVec.toNat_setWidth, BitVec.toNat_ushiftRight, Nat.shiftRight_eq_div_pow]
  omega

theorem lengthBytes_eq {r : Record} (hN : r.params.length ≤ 16380) : lengthBytes r =
    [BitVec.ofNat 8 (12 + 4 * r.params.length), BitVec.ofNat 8 ((12 + 4 * r.params.length) / 256)] := by
  rw [lengthBytes, List.cons.injEq, List.cons.injEq]
  refine ⟨BitVec.eq_of_toNat_eq ?_, BitVec.eq_of_toNat_eq ?_, rfl⟩
  · rw [BitVec.toNat_setWidth, toNat_frameLength hN, BitVec.toNat_ofNat]
  · rw [BitVec.toNat_setWidth, BitVec.toNat_ushiftRight, toNat_frameLength hN, BitVec.toNat_ofNat,
      Nat.shiftRight_eq_div_pow]

/-- Settles O43: the four bytes of the header and the length field, then the bytes that carry the record, then their
checksum. -/
theorem encodedFrameLayout : Obligations.EncodedFrameLayout := by
  unfold Obligations.EncodedFrameLayout
  refine ⟨encodeFrame_eq_none_iff, fun r f hf => ?_⟩
  obtain ⟨hN, rfl⟩ := encodeFrame_eq_some hf
  have hbody := recordBytes_carries r
  have hlen := hbody.length
  have hafter : ∀ {i b}, (recordBytes r ++ [recordChecksum r])[i]? = some b →
      (frameBytes r)[i + 4]? = some b := by
    intro i b hib
    rw [Nat.add_comm, ← List.getElem?_drop, drop_frameBytes, hib]
  have hfield : ∀ {i b}, (recordBytes r)[i]? = some b → (frameBytes r)[i + 4]? = some b :=
    fun hib => hafter (getElem?_append_of_eq_some hib)
  refine ⟨?_, rfl, rfl, ?_, ?_, fun i hi => ?_, fun k j p hp hj => ?_, ?_, ?_, ?_, ?_⟩
  · simp [frameBytes, lengthBytes, hlen]; omega
  · simp [frameBytes, lengthBytes_eq hN]
  · simp [frameBytes, lengthBytes_eq hN]
  · rw [Nat.add_comm]
    exact hfield (hbody.ts i hi)
  · rw [show 12 + 4 * k + j = 8 + 4 * k + j + 4 by omega]
    exact hfield (hbody.params k j p hp hj)
  · rw [show 12 + 4 * r.params.length = 8 + 4 * r.params.length + 4 by omega]
    exact hfield hbody.mtype
  · rw [show 13 + 4 * r.params.length = 9 + 4 * r.params.length + 4 by omega]
    exact hfield hbody.stat
  · rw [show 14 + 4 * r.params.length = 10 + 4 * r.params.length + 4 by omega]
    exact hfield hbody.loopc
  · rw [drop_frameBytes, List.take_left' hlen, ← recordChecksum_eq,
      show 15 + 4 * r.params.length = 11 + 4 * r.params.length + 4 by omega]
    exact hafter (by simp [← hlen])

end Sys2Proof.Machine

/-! SUPPORT. The run of a whole frame (spec/30_encoding.md R77, R79): the header, the length field and the checksum byte,
each with quiet steps before it, the bytes that the registers hold at VALIDATE, and the step that emits their outcome. -/

namespace Sys2Proof.Machine

/-! ### The operation that an offered byte selects -/

/-- Where a byte is offered, the priority list looks at no input but the byte. -/
theorem priorityChoice_offers {i : Inputs} {b : Byte} (hb : offersByte i b) (st : St) (f : BitVec 3) :
    priorityChoice st f i = priorityChoice st f (byteToken b) := by
  obtain ⟨⟨hrst, hclosed, hstop⟩, hvalid, rfl⟩ := hb
  cases st <;> simp [priorityChoice, byteToken, idleToken, hrst, hclosed, hstop, hvalid]

section
variable {s : State} {b : Byte} (hb : offersByte (currentInputs s) b)
include hb

theorem fetch_hdr1Scan (hst : s.st = .idle) : fetch s = .hdr1Scan b := by
  rw [fetch_eq, hst, priorityChoice_offers hb]
  rfl

theorem fetch_hdr2Match (hst : s.st = .sync) : fetch s = .hdr2Match b := by
  rw [fetch_eq, hst, priorityChoice_offers hb]
  rfl

theorem fetch_lenLo (hst : s.st = .length) (hoff : s.off = 0) : fetch s = .lenLo b := by
  rw [fetch_eq, hst, hoff, priorityChoice_offers hb]
  rfl

theorem fetch_lenHi (hst : s.st = .length) (hoff : s.off = 1) : fetch s = .lenHi b := by
  rw [fetch_eq, hst, hoff, priorityChoice_offers hb]
  rfl

theorem fetch_chkByte (hst : s.st = .payload) (hok : lengthOk s.len = true) (hoff : s.off.toNat + 1 = s.len.toNat) :
    fetch s = .chkByte b := by
  have hlen := ((lengthOk_iff _).mp hok).2
  have hsel : fsel .payload s.off s.len = 5 := by
    have hrows := bodySelect_rows hlen (show s.off.toNat < s.len.toNat by omega)
    simp only [fsel]
    bv_omega
  rw [fetch_eq, hst, hsel, priorityChoice_offers hb]
  rfl

end

/-! ### The steps of the length field (spec/41_length.md R122) -/

theorem exec_lenHi_ok {s : State} {b : Byte} (h : lengthOk (lenWithHigh s.len b) = true) :
    ∃ t, exec (.lenHi b) s = .next t ∧ t.st = .payload ∧ t.off = 0 ∧ t.len = lenWithHigh s.len b ∧
      t.sum = sumSeed t.len ∧ t.inputs = s.inputs ∧ t.out = { s.out with consumed := true, outcome := none } :=
  ⟨_, if_pos h, rfl, rfl, rfl, rfl, rfl, rfl⟩

theorem exec_lenHi_malformed {s : State} {b : Byte} (h : lengthOk (lenWithHigh s.len b) ≠ true) : exec (.lenHi b) s =
    .next (raiseError true (.malformedLength (lenWithHigh s.len b)) { s with len := lenWithHigh s.len b }) := if_neg h

/-- The length field put together from its two bytes. -/
theorem lenWithHigh_setLenLow (len : Half) (lo hi : Byte) : lenWithHigh (setLenLow len lo) hi = (hi ++ lo : Half) := by
  apply BitVec.eq_of_toNat_eq
  have := lo.isLt
  rw [toNat_lenWithHigh, toNat_setLenLow, toNat_append_byte]
  omega

/-! ### Runs that take bytes and emit nothing -/

/-- `n` steps from `s` to `t` take `k` bytes and emit nothing. -/
def SilentRun (n k : Nat) (s t : State) : Prop :=
  ∃ outs, trace n s = some (outs, t) ∧ emitted outs = [] ∧ consumedCount outs = k

theorem SilentRun.nil (s : State) : SilentRun 0 0 s s := ⟨[], rfl, rfl, rfl⟩

theorem SilentRun.trans {n m k l : Nat} {s t u : State} (hst : SilentRun n k s t) (htu : SilentRun m l t u) :
    SilentRun (n + m) (k + l) s u := by
  obtain ⟨outs, hrun, hem, hcon⟩ := hst
  obtain ⟨outs', hrun', hem', hcon'⟩ := htu
  exact ⟨outs ++ outs', trace_append hrun hrun', by simp [hem, hem'], by simp [hcon, hcon']⟩

/-- The step that follows a silent run gives the run's outcome. -/
theorem SilentRun.then_step {n k : Nat} {s t u : State} (hst : SilentRun n k s t) (hstep : step t = .next u) :
    ∃ outs, trace (n + 1) s = some (outs, u) ∧ emitted outs = u.out.outcome.toList ∧
      consumedCount outs = k + if u.out.consumed then 1 else 0 := by
  obtain ⟨outs, hrun, hem, hcon⟩ := hst
  exact ⟨outs ++ [u.out], trace_append hrun (trace_succ hstep rfl), by simp [hem], by simp [hcon]⟩

/-- `s` where the next step offers the byte `b`. -/
def offering (b : Byte) (rest : List Inputs) (s : State) : State := { s with inputs := byteToken b :: rest }

/-- `s` once an offered byte is sampled that the block is ready for. -/
def sampled (rest : List Inputs) (s : State) : State :=
  { s with inputs := rest, out := { stOut := s.st, inReady := true, consumed := false, outcome := none } }

theorem offering_offers (b : Byte) (rest : List Inputs) (s : State) :
    offersByte (currentInputs (offering b rest s)) b := byteToken_offers b

theorem step_offering {s : State} {b : Byte} {i : Instr} {rest : List Inputs} (hst : isReceiving s.st = true)
    (hfetch : fetch (offering b rest s) = i) : step (offering b rest s) = exec i (sampled rest s) := by
  have hready : inReady (offering b rest s) = true := (inReady_iff _).mpr ⟨(offering_offers b rest s).1, hst⟩
  rw [step_eq, hfetch, beginStep_cons (i := byteToken b) (rest := rest) rfl, hready]
  rfl

/-- A byte, offered after quiet steps, whose operation `i` takes it without an outcome, and a silent run over the bytes
after it. -/
theorem silentRun_offered_cons {s t u : State} {b : Byte} {bs : List Byte} {gaps : List (List Byte)}
    {rest : List Inputs} {i : Instr} {k : Nat} (hst : isReceiving s.st = true)
    (hin : s.inputs = offered (b :: bs) gaps ++ rest)
    (hfetch : fetch (offering b (offered bs gaps.tail ++ rest) s) = i)
    (hexec : exec i (sampled (offered bs gaps.tail ++ rest) s) = .next t)
    (hcon : t.out.consumed = true) (hnone : t.out.outcome = none)
    (hrun : SilentRun (offered bs gaps.tail).length k t u) : SilentRun (offered (b :: bs) gaps).length (1 + k) s u := by
  rw [offered_cons, List.append_assoc] at hin
  obtain ⟨outs, v, hquiet, hem, htaken, hv⟩ := trace_quiet _ _ s hst hin
  have hstep : step v = .next t := by
    rw [hv]
    exact (step_offering hst hfetch).trans hexec
  obtain ⟨outs', hrun', hem', hcon'⟩ := hrun
  refine ⟨outs ++ t.out :: outs', ?_, by simp [hem, hnone, hem'], by simp [htaken, hcon, hcon']⟩
  rw [offered_cons, List.length_append, List.length_map, List.length_cons]
  exact trace_append hquiet (trace_succ hstep hrun')

/-! ### The header and the length field -/

theorem exec_hdr1Scan_hdr1 (s : State) : exec (.hdr1Scan 0xEB) s = .next (finish true none (goTo .sync s)) := rfl

theorem exec_hdr2Match_hdr2 (s : State) :
    exec (.hdr2Match 0x90) s = .next (finish true none { s with st := .length, off := 0 }) := rfl

/-- From IDLE to the second byte of the length field. -/
theorem silentRun_header {s : State} {lo : Byte} {gaps : List (List Byte)} {rest : List Inputs} (hst : s.st = .idle)
    (hin : s.inputs = offered [0xEB, 0x90, lo] gaps ++ rest) :
    ∃ t, SilentRun (offered [0xEB, 0x90, lo] gaps).length 3 s t ∧ t.st = .length ∧ t.off = 1 ∧
      t.len = setLenLow s.len lo ∧ t.inputs = rest :=
  ⟨_, silentRun_offered_cons (by simp [hst, isReceiving]) hin (fetch_hdr1Scan (offering_offers ..) hst)
    (exec_hdr1Scan_hdr1 _) rfl rfl (silentRun_offered_cons rfl rfl (fetch_hdr2Match (offering_offers ..) rfl)
      (exec_hdr2Match_hdr2 _) rfl rfl (silentRun_offered_cons rfl rfl (fetch_lenLo (offering_offers ..) rfl rfl)
        rfl rfl rfl (.nil _))), rfl, rfl, rfl, rfl⟩

/-! ### The body and its checksum byte -/

/-- The block at VALIDATE, after a frame whose body is `bs` and then the checksum byte `x` (spec/10_state.md R35 (d)). -/
structure FrameReceived (bs : List Byte) (x : Byte) (t : State) : Prop where
  st : t.st = .validate
  ok : lengthOk t.len = true
  len : t.len.toNat = bs.length + 1
  sum : t.sum = BitVec.ofNat 8 (t.len.toNat + byteSum bs)
  rxchk : t.rxchk = x
  held : ∀ i b, bs[i]? = some b → bodyByte t i = b

/-- In PAYLOAD at offset 0, a body of the length that the length field gives is received up to VALIDATE. -/
theorem silentRun_body {s : State} {bs : List Byte} {x : Byte} {gaps : List (List Byte)} {rest : List Inputs}
    (hst : s.st = .payload) (hoff : s.off = 0) (hok : lengthOk s.len = true) (hsum : s.sum = sumSeed s.len)
    (hlen : s.len.toNat = bs.length + 1) (hin : s.inputs = offered (bs ++ [x]) gaps ++ rest) :
    ∃ t, SilentRun (offered (bs ++ [x]) gaps).length (bs.length + 1) s t ∧ FrameReceived bs x t ∧ t.len = s.len ∧
      t.inputs = rest := by
  have hzero : s.off.toNat = 0 := by simp [hoff]
  rw [offered_append, List.append_assoc] at hin
  obtain ⟨outs, u, hrun, hem, hcon, hinu, hbody⟩ := trace_offered_body bs gaps _ s hst hok (by omega) hin
  have hlast : u.off.toNat + 1 = u.len.toNat := by rw [hbody.off, hbody.len]; omega
  have hstu : u.st = .payload := hbody.st.trans hst
  have hoku : lengthOk u.len = true := by rwa [hbody.len]
  have hchk := silentRun_offered_cons (by simp [hstu, isReceiving]) hinu
    (fetch_chkByte (offering_offers ..) hstu hoku hlast) rfl rfl rfl (.nil _)
  refine ⟨finish true none { sampled rest u with rxchk := x, st := .validate }, ?_,
    ⟨rfl, hoku, (congrArg _ hbody.len).trans hlen, ?_, rfl, fun i b hib => ?_⟩, hbody.len, rfl⟩
  · rw [offered_append, List.length_append]
    exact SilentRun.trans ⟨outs, hrun, hem, hcon⟩ hchk
  · show u.sum = BitVec.ofNat 8 (u.len.toNat + byteSum bs)
    rw [hbody.sum, hsum, hbody.len, sumSeed, BitVec.ofNat_add, ← BitVec.ofNat_toNat]
  · obtain ⟨hi, -⟩ := List.getElem?_eq_some_iff.mp hib
    refine ((bodyByte_congr rfl rfl rfl rfl rfl rfl rfl i).trans
      (bodyByte_setRxchk u x i .validate (by rw [hbody.len]; omega))).trans ?_
    simpa only [hzero, Nat.zero_add] using hbody.taken i b hib

/-- spec/30_encoding.md R77: from IDLE, a well-formed length field takes exactly that many bytes. -/
theorem silentRun_frame {s : State} {lo hi x : Byte} {bs : List Byte} {gaps : List (List Byte)} {rest : List Inputs}
    (hst : s.st = .idle) (hok : lengthOk (hi ++ lo : Half) = true) (hlen : (hi ++ lo : Half).toNat = bs.length + 1)
    (hin : s.inputs = offered ([0xEB, 0x90, lo, hi] ++ (bs ++ [x])) gaps ++ rest) :
    ∃ t, SilentRun (offered ([0xEB, 0x90, lo, hi] ++ (bs ++ [x])) gaps).length (bs.length + 5) s t ∧
      FrameReceived bs x t ∧ t.len = (hi ++ lo : Half) ∧ t.inputs = rest := by
  have hsplit : [0xEB, 0x90, lo, hi] ++ (bs ++ [x]) = [0xEB, 0x90, lo] ++ (hi :: (bs ++ [x])) := rfl
  rw [hsplit, offered_append] at hin ⊢
  rw [List.append_assoc] at hin
  obtain ⟨t, hheader, hstt, hofft, hlent, hint⟩ := silentRun_header hst hin
  have hwhole : lenWithHigh t.len hi = (hi ++ lo : Half) := by rw [hlent, lenWithHigh_setLenLow]
  obtain ⟨u, hexec, hstu, hoffu, hlenu, hsumu, hinu, houtu⟩ := exec_lenHi_ok (b := hi)
    (s := sampled (offered (bs ++ [x]) (gaps.drop [0xEB, 0x90, lo].length).tail ++ rest) t) (hwhole ▸ hok)
  have hlenu' : u.len = (hi ++ lo : Half) := hlenu.trans hwhole
  obtain ⟨v, hbody, hreceived, hlenv, hinv⟩ := silentRun_body hstu hoffu (hlenu' ▸ hok) hsumu (hlenu' ▸ hlen) hinu
  refine ⟨v, ?_, hreceived, hlenv.trans hlenu', hinv⟩
  rw [List.length_append, show bs.length + 5 = 3 + (1 + (bs.length + 1)) by omega]
  exact hheader.trans (silentRun_offered_cons (by simp [hstt, isReceiving]) hint
    (fetch_lenHi (offering_offers ..) hstt hofft) hexec (by simp [houtu]) (by simp [houtu]) hbody)

/-! ### The outcome of a received frame (spec/43_validate.md R173) -/

theorem step_validate {s : State} {v : Inputs} {rest : List Inputs} (hst : s.st = .validate)
    (hin : s.inputs = v :: rest) (hrst : v.rst = false) :
    ∃ t, step s = .next t ∧ t.out.consumed = false ∧ t.st = .idle ∧ t.inputs = rest ∧
      t.out.outcome = some (if s.sum = s.rxchk then .record (currentRecord s)
        else .checksumMismatch s.len s.sum s.rxchk) := by
  rw [step_eq, fetch_validate hst (by rwa [currentInputs_cons hin]), beginStep_cons hin]
  by_cases hmatch : s.sum = s.rxchk
  · exact ⟨_, exec_validate_match hmatch, rfl, rfl, rfl, by rw [if_pos hmatch]; rfl⟩
  · exact ⟨_, exec_validate_mismatch hmatch, rfl, rfl, rfl, by rw [if_neg hmatch]; rfl⟩

/-- The bytes of a parameter as the buffer holds them (spec/20_memory.md R52). -/
theorem wordByte_paramWord (s : State) (k : Nat) {j : Nat} (hj : j < 4) :
    BitVec.extractLsb' (8 * j) 8 (paramWord s k) = readPB s (4 * k + j) := by
  apply BitVec.eq_of_toNat_eq
  have h0 := (readPB s (4 * k)).isLt
  have h1 := (readPB s (4 * k + 1)).isLt
  have h2 := (readPB s (4 * k + 2)).isLt
  have h3 := (readPB s (4 * k + 3)).isLt
  simp only [BitVec.extractLsb'_toNat, paramWord, BitVec.toNat_ofNat, memRead_four, Nat.shiftRight_eq_div_pow]
  interval_cases j
  · simp only [Nat.mul_zero, Nat.pow_zero, Nat.div_one, Nat.add_zero]
    omega
  all_goals omega

section
variable {bs : List Byte} {x : Byte} {t : State} (h : FrameReceived bs x t)
include h

/-- A received byte, as the body byte that its offset names. -/
theorem FrameReceived.getElem? {i : Nat} (hi : i < bs.length) : bs[i]? = some (bodyByte t i) := by
  rw [List.getElem?_eq_getElem hi, h.held i _ (List.getElem?_eq_getElem hi)]

theorem FrameReceived.length : bs.length = 11 + 4 * (paramWords t).length := by
  have hlen := h.len
  have hok := (lengthOk_iff _).mp h.ok
  simp only [paramWords, List.length_map, List.length_range, paramCount_of_ok h.ok]
  omega

/-- The received bytes carry the record that VALIDATE emits. -/
theorem FrameReceived.carriesRecord : CarriesRecord (currentRecord t) bs := by
  have hbs : bs.length = 11 + 4 * (currentRecord t).params.length := h.length
  have hlen : t.len.toNat = 12 + 4 * (currentRecord t).params.length := by rw [h.len, hbs]; omega
  refine ⟨hbs, fun i hi => ?_, fun k j p hp hj => ?_, ?_, ?_, ?_⟩
  · rw [h.getElem? (by omega), bodyByte_of_lt_eight hi]
    rfl
  · obtain ⟨hk, rfl⟩ := List.getElem?_eq_some_iff.mp hp
    have hword : (currentRecord t).params[k] = paramWord t k := by simp [currentRecord, paramWords]
    rw [h.getElem? (by omega), bodyByte_param (by omega) (by omega), hword, wordByte_paramWord t k hj,
      show 8 + 4 * k + j - 8 = 4 * k + j by omega]
  · rw [h.getElem? (by omega), bodyByte_mtype (by omega) (by omega)]
    rfl
  · rw [h.getElem? (by omega), bodyByte_stat (by omega) (by omega)]
    rfl
  · rw [h.getElem? (by omega), bodyByte_loopc (by omega) (by omega)]
    rfl

/-- The running sum after the whole body, from the low byte of the length field alone (spec/43_validate.md R171 (a)). -/
theorem FrameReceived.sum_eq {lo hi : Byte} (hlen : t.len = (hi ++ lo : Half)) :
    t.sum = BitVec.ofNat 8 (lo.toNat + byteSum bs) := by
  apply BitVec.eq_of_toNat_eq
  rw [h.sum, hlen, toNat_append_byte, BitVec.toNat_ofNat, BitVec.toNat_ofNat]
  omega

end

/-- From IDLE, a frame of a well-formed length is received and then gives its one outcome. -/
theorem frame_outcome {s : State} {lo hi x : Byte} {bs : List Byte} {gaps : List (List Byte)} {v : Inputs}
    {rest : List Inputs} (hst : s.st = .idle) (hok : lengthOk (hi ++ lo : Half) = true)
    (hlen : (hi ++ lo : Half).toNat = bs.length + 1) (hrst : v.rst = false)
    (hin : s.inputs = offered ([0xEB, 0x90, lo, hi] ++ (bs ++ [x])) gaps ++ v :: rest) :
    ∃ t u, SilentRun (offered ([0xEB, 0x90, lo, hi] ++ (bs ++ [x])) gaps).length (bs.length + 5) s t ∧
      FrameReceived bs x t ∧ step t = .next u ∧ u.out.consumed = false ∧ u.st = .idle ∧ u.inputs = rest ∧
      u.out.outcome = some (if BitVec.ofNat 8 (lo.toNat + byteSum bs) = x then .record (currentRecord t)
        else .checksumMismatch (hi ++ lo : Half) (BitVec.ofNat 8 (lo.toNat + byteSum bs)) x) := by
  obtain ⟨t, hrun, hreceived, hlent, hint⟩ := silentRun_frame hst hok hlen hin
  obtain ⟨u, hstep, hcon, hstu, hinu, hout⟩ := step_validate hreceived.st hint hrst
  refine ⟨t, u, hrun, hreceived, hstep, hcon, hstu, hinu, ?_⟩
  rw [hout, hreceived.rxchk, hreceived.sum_eq hlent, hlent]

/-- From IDLE, a length that is not well-formed is the outcome of the step that takes its high byte. -/
theorem malformed_outcome {s : State} {lo hi : Byte} {rest : List Inputs} (hst : s.st = .idle)
    (hbad : lengthOk (hi ++ lo : Half) ≠ true) (hin : s.inputs = [0xEB, 0x90, lo, hi].map byteToken ++ rest) :
    ∃ outs t, trace 4 s = some (outs, t) ∧ emitted outs = [.malformedLength (hi ++ lo : Half)] ∧ t.st = .idle ∧
      t.inputs = rest := by
  obtain ⟨t, hrun, hstt, hofft, hlent, hint⟩ :=
    silentRun_header (gaps := []) (rest := byteToken hi :: rest) hst (by rw [offered_no_gaps]; exact hin)
  have hwhole : lenWithHigh t.len hi = (hi ++ lo : Half) := by rw [hlent, lenWithHigh_setLenLow]
  have hoffer : offering hi rest t = t := by rw [offering, ← hint]
  have hstep := step_offering (by simp [hstt, isReceiving]) (fetch_lenHi (offering_offers hi rest t) hstt hofft)
  rw [hoffer, exec_lenHi_malformed (s := sampled rest t) (hwhole ▸ hbad)] at hstep
  obtain ⟨outs, htrace, hem, -⟩ := hrun.then_step hstep
  exact ⟨outs, _, htrace, by rw [hem, ← hwhole]; rfl, rfl, rfl⟩

/-- The checksum byte that closes a record's own frame is the sum of the frame's bytes from the length on. -/
theorem recordChecksum_eq_sum {r : Record} (hN : r.params.length ≤ 16380) :
    BitVec.ofNat 8 ((BitVec.setWidth 8 (frameLength r) : Byte).toNat + byteSum (recordBytes r)) = recordChecksum r := by
  apply BitVec.eq_of_toNat_eq
  rw [recordChecksum_eq, BitVec.toNat_ofNat, BitVec.toNat_ofNat, BitVec.toNat_setWidth, toNat_frameLength hN]
  omega

/-- Settles O44: the frame is received whole, its checksum is the sum, and its bytes carry no other record. -/
theorem encodedFrameRoundTrips : Obligations.EncodedFrameRoundTrips := by
  unfold Obligations.EncodedFrameRoundTrips
  intro r f gaps v rest s hf hst hrst hin
  obtain ⟨hN, rfl⟩ := encodeFrame_eq_some hf
  have hcarries := recordBytes_carries r
  have hlenbytes := lengthBytes_append (frameLength r)
  have hlen : (frameLength r).toNat = (recordBytes r).length + 1 := by
    rw [toNat_frameLength hN, hcarries.length]
    omega
  obtain ⟨t, u, ⟨outs, hrun, hem, hcon⟩, hreceived, hstep, hconu, hstu, hinu, hout⟩ := frame_outcome hst
    (hlenbytes.symm ▸ lengthOk_frameLength hN) (hlenbytes.symm ▸ hlen) hrst hin
  refine ⟨outs, t, u, hrun, hem, ?_, hreceived.st, hstep, ?_, hconu, hstu, hinu, ?_⟩
  · simp [hcon, frameBytes, lengthBytes]
  · rw [hout, if_pos (recordChecksum_eq_sum hN), hreceived.carriesRecord.unique hcarries]
  · rintro rfl
    rw [offered_no_gaps]
    simp [frameBytes, lengthBytes, hcarries.length]
    omega

/-- Settles O48: a body of the length given is received whole and compared with its last byte; any other length is the
outcome of the step that takes its high byte. -/
theorem lengthFieldCutsStream : Obligations.LengthFieldCutsStream := by
  unfold Obligations.LengthFieldCutsStream
  refine ⟨fun lo hi body gaps v rest s hst hrst hsize hmod hmin hin => ?_, fun lo hi rest s hst hbad hin => ?_⟩
  · obtain rfl | ⟨bs, x, rfl⟩ := List.eq_nil_or_concat' body
    · simp at hmin
    have htotal : (bs ++ [x]).length = bs.length + 1 := by simp
    have hlen : (hi ++ lo : Half).toNat = bs.length + 1 := by rw [toNat_append_byte, ← hsize, htotal]
    have hok : lengthOk (hi ++ lo : Half) = true := by
      rw [lengthOk_iff, hlen, ← htotal]
      exact ⟨hmod, hmin⟩
    obtain ⟨t, u, hrun, hreceived, hstep, hconu, hstu, hinu, hout⟩ := frame_outcome hst hok hlen hrst hin
    obtain ⟨outs, htrace, hem, hcon⟩ := hrun.then_step hstep
    have hcarries := hreceived.carriesRecord
    have hlenbs := hcarries.length
    rw [hout, Option.toList_some] at hem
    rw [htotal, Nat.add_sub_cancel, List.take_left' rfl, List.getElem?_concat_length]
    refine ⟨outs, u, htrace, ?_, hstu, hinu, fun hmatch => ?_, fun y hy hne => ?_⟩
    · simp [hcon, hconu]
      omega
    · obtain rfl := Option.some.inj hmatch
      refine ⟨currentRecord t, by rw [hem, if_pos rfl], by omega, fun i hi => ?_, fun k j p hp hj => ?_, ?_, ?_, ?_⟩
      · exact getElem?_append_of_eq_some (hcarries.ts i hi)
      · exact getElem?_append_of_eq_some (hcarries.params k j p hp hj)
      · rw [show bs.length + 1 - 4 = 8 + 4 * (currentRecord t).params.length by omega]
        exact getElem?_append_of_eq_some hcarries.mtype
      · rw [show bs.length + 1 - 3 = 9 + 4 * (currentRecord t).params.length by omega]
        exact getElem?_append_of_eq_some hcarries.stat
      · rw [show bs.length + 1 - 2 = 10 + 4 * (currentRecord t).params.length by omega]
        exact getElem?_append_of_eq_some hcarries.loopc
    · obtain rfl := Option.some.inj hy
      rw [hem, if_neg hne.symm]
  · have hmalformed : lengthOk (hi ++ lo : Half) ≠ true := by
      rwa [ne_eq, lengthOk_iff, toNat_append_byte]
    exact malformed_outcome hst hmalformed hin

end Sys2Proof.Machine

/-! SUPPORT. Noise between frames (spec/40_sync.md R100 to R103): the bytes discarded in IDLE, with quiet steps anywhere,
the mismatch of a second header byte, and a frame that stands between noise. -/

namespace Sys2Proof.Machine

/-! ### The header matcher's other branches -/

theorem exec_hdr1Scan_discard {b : Byte} (hb : b ≠ 0xEB) (s : State) :
    exec (.hdr1Scan b) s = .next (finish true none (goTo .idle s)) := by
  rw [exec, execHdr1Scan, Config.hdr1, if_neg hb]

theorem exec_hdr2Match_mismatch {b : Byte} (hb : b ≠ 0x90) (s : State) :
    exec (.hdr2Match b) s = .next (raiseError true .headerMismatch s) := if_neg hb

/-! ### Runs over noise -/

/-- Bytes other than 0xEB leave the block in IDLE as it was, but for the inputs and the outputs. -/
theorem silentRun_noise : ∀ {noise : List Byte} {gaps : List (List Byte)} {rest : List Inputs} {s : State},
    s.st = .idle → (∀ b ∈ noise, b ≠ 0xEB) → s.inputs = offered noise gaps ++ rest →
    ∃ t, SilentRun (offered noise gaps).length noise.length s t ∧ t = { s with inputs := rest, out := t.out }
  | [], gaps, rest, s, _, _, hin => ⟨s, .nil s, by rw [show rest = s.inputs from hin.symm]⟩
  | b :: noise, gaps, rest, s, hst, hnoise, hin => by
    obtain ⟨hb, hlater⟩ := List.forall_mem_cons.mp hnoise
    obtain ⟨t, hrun, ht⟩ := silentRun_noise (gaps := gaps.tail) (rest := rest)
      (s := finish true none (goTo .idle (sampled (offered noise gaps.tail ++ rest) s))) rfl hlater rfl
    have hfirst := silentRun_offered_cons (by simp [hst, isReceiving]) hin
      (fetch_hdr1Scan (offering_offers ..) hst) (exec_hdr1Scan_discard hb _) rfl rfl hrun
    refine ⟨t, ?_, ?_⟩
    · rwa [List.length_cons, Nat.add_comm]
    · rw [ht, ← hst]
      rfl

/-- A silent run, a step and a silent run give the outcome of the step alone. -/
theorem SilentRun.step_between {n m k l : Nat} {s t u v : State} (hst : SilentRun n k s t) (hstep : step t = .next u)
    (huv : SilentRun m l u v) :
    ∃ outs, trace (n + 1 + m) s = some (outs, v) ∧ emitted outs = u.out.outcome.toList ∧
      consumedCount outs = k + (if u.out.consumed then 1 else 0) + l := by
  obtain ⟨outs, hrun, hem, hcon⟩ := hst.then_step hstep
  obtain ⟨outs', hrun', hem', hcon'⟩ := huv
  exact ⟨outs ++ outs', trace_append hrun hrun', by simp [hem, hem'], by simp [hcon, hcon']⟩

/-- Settles O45: the noise before the frame leads to IDLE, from which the frame gives its record (O44), and the noise
after it is discarded from IDLE again. -/
theorem noiseRecovery : Obligations.NoiseRecovery := by
  unfold Obligations.NoiseRecovery
  intro r f before after gaps gaps' v rest s hf hbefore hafter hst hrst hin
  rw [offered_append, List.append_assoc] at hin
  obtain ⟨s₁, hnoise, hs₁⟩ := silentRun_noise hst hbefore hin
  have hst₁ : s₁.st = .idle := by rw [hs₁, hst]
  have hin₁ : s₁.inputs = offered f (gaps.drop before.length) ++ v :: (offered after gaps' ++ rest) := by rw [hs₁]
  obtain ⟨outs, t, u, hrun, hem, hcon, -, hstep, hout, hnot, hstu, hinu, -⟩ :=
    encodedFrameRoundTrips r f _ v _ s₁ hf hst₁ hrst hin₁
  obtain ⟨w, hnoise', hw⟩ := silentRun_noise hstu hafter hinu
  obtain ⟨outs', hwhole, hemitted, hconsumed⟩ :=
    (hnoise.trans ⟨outs, hrun, hem, hcon⟩).step_between hstep hnoise'
  refine ⟨outs', w, ?_, by simp [hemitted, hout], by simp [hconsumed, hnot], by rw [hw, hstu], by rw [hw]⟩
  rwa [offered_append, List.length_append]

/-- Settles O13: noise offered in every step is noise without quiet steps between. -/
theorem headerScan : Obligations.HeaderScan := by
  unfold Obligations.HeaderScan
  refine ⟨fun _ _ => rfl, fun _ _ hst hb => fetch_hdr1Scan hb hst, fun noise rest s hst hnoise hin => ?_⟩
  rw [← offered_no_gaps] at hin
  obtain ⟨t, ⟨outs, hrun, hem, hcon⟩, ht⟩ := silentRun_noise hst hnoise hin
  rw [offered_no_gaps, List.length_map] at hrun
  exact ⟨outs, t, hrun, hem, hcon, ht⟩

/-! ### Resynchronization -/

/-- Noise and then 0xEB lead from IDLE to SYNC. -/
theorem silentRun_toSync {noise : List Byte} {rest : List Inputs} {s : State} (hst : s.st = .idle)
    (hnoise : ∀ b ∈ noise, b ≠ 0xEB) (hin : s.inputs = noise.map byteToken ++ byteToken 0xEB :: rest) :
    ∃ t, SilentRun (noise.length + 1) (noise.length + 1) s t ∧ t.st = .sync ∧ t.inputs = rest := by
  rw [← offered_no_gaps] at hin
  obtain ⟨u, hrun, hu⟩ := silentRun_noise hst hnoise hin
  rw [offered_no_gaps, List.length_map] at hrun
  have hstu : u.st = .idle := by rw [hu, hst]
  have hinu : u.inputs = offered [0xEB] [] ++ rest := by rw [hu]; rfl
  exact ⟨_, hrun.trans (silentRun_offered_cons (by simp [hstu, isReceiving]) hinu
    (fetch_hdr1Scan (offering_offers ..) hstu) (exec_hdr1Scan_hdr1 _) rfl rfl (.nil _)), rfl, rfl⟩

/-- Settles O15: the noise and 0xEB lead to SYNC, where `x` is the mismatch. -/
theorem resynchronizesAfterMismatch : Obligations.ResynchronizesAfterMismatch := by
  unfold Obligations.ResynchronizesAfterMismatch
  intro noise x rest s hst hnoise hx hin
  obtain ⟨t, ⟨outs, hrun, hem, -⟩, hstt, hint⟩ := silentRun_toSync hst hnoise hin
  have hoffers : offersByte (currentInputs t) x := by
    rw [currentInputs_cons hint]
    exact byteToken_offers x
  have hfetch := fetch_hdr2Match hoffers hstt
  have hstep : step t = .next (raiseError true .headerMismatch (beginStep t)) := by
    rw [step_eq, hfetch, exec_hdr2Match_mismatch hx]
  exact ⟨outs, t, _, hrun, hem, hstt, hstep, hfetch, rfl, rfl, rfl, by simp [hint]⟩

/-- Settles O14: `EB EB` is the resynchronization law with 0xEB as the mismatched byte, and the `90` after it is noise. -/
theorem secondHeaderByte : Obligations.SecondHeaderByte := by
  unfold Obligations.SecondHeaderByte
  refine ⟨exec_hdr2Match_hdr2, fun _ s hb => exec_hdr2Match_mismatch hb s,
    fun _ _ hst hb => fetch_hdr2Match hb hst, fun rest s hst hin => ?_⟩
  obtain ⟨outs, t, u, hrun, hem, -, hstep, -, hout, -, hstu, hinu⟩ :=
    resynchronizesAfterMismatch [] 0xEB _ s hst (by simp) (by decide) hin
  obtain ⟨v, hnoise, hv⟩ := silentRun_noise (noise := [0x90]) (gaps := []) (rest := rest) hstu (by simp) hinu
  obtain ⟨outs', hwhole, hemitted, -⟩ := SilentRun.step_between ⟨outs, hrun, hem, rfl⟩ hstep hnoise
  exact ⟨outs', v, hwhole, by rw [hemitted, hout]; rfl, by rw [hv, hstu], by rw [hv]⟩

end Sys2Proof.Machine

/-! SUPPORT. The operations of the length field with their whole frames (spec/41_length.md R120, R122), and the
well-formed lengths as a range of parameter counts (R121). -/

namespace Sys2Proof.Machine

/-! ### LEN_LO -/

theorem setLenLow_mod (len : Half) (b : Byte) : (setLenLow len b).toNat % 256 = b.toNat := by
  rw [toNat_setLenLow, Nat.mul_add_mod, Nat.mod_eq_of_lt b.isLt]

theorem setLenLow_div (len : Half) (b : Byte) : (setLenLow len b).toNat / 256 = len.toNat / 256 := by
  rw [toNat_setLenLow, Nat.mul_add_div (by decide), Nat.div_eq_of_lt b.isLt, Nat.add_zero]

/-- Settles O16: `setLenLow` replaces the remainder of `len` by 256 and keeps its quotient. -/
theorem lengthLowByte : Obligations.LengthLowByte := by
  unfold Obligations.LengthLowByte
  exact ⟨fun b s => ⟨_, rfl, setLenLow_mod s.len b, setLenLow_div s.len b, rfl⟩,
    fun _ _ hst hoff hb => fetch_lenLo hb hst hoff⟩

/-! ### Well-formed lengths -/

/-- 65532 = 12 + 4 * 16380 is the greatest multiple of 4 that a `Half` holds. -/
theorem lengthOk_iff_exists (len : Half) : lengthOk len = true ↔ ∃ n, n ≤ 16380 ∧ len.toNat = 12 + 4 * n := by
  have hwidth := len.isLt
  rw [lengthOk_iff]
  constructor
  case mp =>
    rintro ⟨hmod, hmin⟩
    exact ⟨len.toNat / 4 - 3, by omega, by omega⟩
  case mpr =>
    rintro ⟨n, -, hn⟩
    omega

/-- Settles O17: the count of a well-formed length is the `n` of `12 + 4 * n`. -/
theorem wellFormedLengths : Obligations.WellFormedLengths := by
  unfold Obligations.WellFormedLengths
  refine fun len => ⟨lengthOk_iff len, lengthOk_iff_exists len, fun hok => ?_⟩
  obtain ⟨n, hn, hlen⟩ := (lengthOk_iff_exists len).mp hok
  rw [paramCount_of_ok hok]
  omega

/-! ### LEN_HI -/

/-- LEN_HI with a well-formed length, the whole next state. -/
theorem exec_lenHi_startsBody {s : State} {b : Byte} (h : lengthOk (lenWithHigh s.len b) = true) :
    exec (.lenHi b) s = .next (finish true none
      { s with len := lenWithHigh s.len b, st := .payload, off := 0, sum := sumSeed (lenWithHigh s.len b) }) := if_pos h

theorem sumSeed_eq_ofNat (len : Half) : sumSeed len = BitVec.ofNat 8 len.toNat := (BitVec.ofNat_toNat 8 len).symm

/-- Settles O18: LEN_HI's two branches are the two sides of the check, which is the arithmetic condition on L. -/
theorem lengthHighByte : Obligations.LengthHighByte := by
  unfold Obligations.LengthHighByte
  refine ⟨fun b s => ?_, fun _ _ hst hoff hb => fetch_lenHi hb hst hoff⟩
  have hiff := lengthOk_iff (lenWithHigh s.len b)
  by_cases hok : lengthOk (lenWithHigh s.len b) = true
  case pos =>
    refine ⟨_, exec_lenHi_startsBody hok, toNat_lenWithHigh s.len b, fun _ => ?_,
      fun hbad => absurd (hiff.mp hok) hbad⟩
    rw [sumSeed_eq_ofNat]
    rfl
  case neg =>
    exact ⟨_, exec_lenHi_malformed hok, toNat_lenWithHigh s.len b,
      fun hgood => absurd (hiff.mpr hgood) hok, fun _ => rfl⟩

end Sys2Proof.Machine

/-! SUPPORT. The operations of the body with their whole frames (spec/42_payload.md R140 to R145), and the places in
PAYLOAD at which an offered byte selects each of them. -/

namespace Sys2Proof.Machine

/-! ### The selection of a body operation (spec/10_state.md R33) -/

section
variable {s : State} {b : Byte} (hst : s.st = .payload) (hok : lengthOk s.len = true)
  (hb : offersByte (currentInputs s) b)
include hst hb

/-- In PAYLOAD the field selector and the offered byte alone choose the operation. -/
theorem fetch_payload {f : BitVec 3} (hsel : fsel .payload s.off s.len = f) :
    fetch s = priorityChoice .payload f (byteToken b) := by
  rw [fetch_eq, hst, hsel, priorityChoice_offers hb]

include hok

theorem fetch_tsByte (hoff : s.off.toNat < 8) : fetch s = .tsByte b := by
  obtain ⟨-, hbody, -⟩ := fieldSelectorTable
  obtain ⟨hts, -⟩ := hbody s.off s.len ((lengthOk_iff _).mp hok).2
  exact fetch_payload hst hb (hts hoff)

theorem fetch_paramByte (hlow : 8 ≤ s.off.toNat) (hhigh : s.off.toNat + 4 < s.len.toNat) :
    fetch s = .paramByte b := by
  obtain ⟨-, hbody, -⟩ := fieldSelectorTable
  obtain ⟨-, hparam, -⟩ := hbody s.off s.len ((lengthOk_iff _).mp hok).2
  exact fetch_payload hst hb (hparam hlow (by bv_omega))

/-- The three trailer bytes before the checksum stand at distinct offsets. -/
theorem fetch_trailer :
    (s.off = s.len - 4 → fetch s = .mtypeByte b) ∧ (s.off = s.len - 3 → fetch s = .statusByte b) ∧
      (s.off = s.len - 2 → fetch s = .loopcByte b) := by
  obtain ⟨-, hbody, -⟩ := fieldSelectorTable
  obtain ⟨-, -, hmtype, hstat, hloopc, -⟩ := hbody s.off s.len ((lengthOk_iff _).mp hok).2
  exact ⟨fun h => fetch_payload hst hb (hmtype h), fun h => fetch_payload hst hb (hstat h),
    fun h => fetch_payload hst hb (hloopc h)⟩

end

/-! ### TS_BYTE -/

theorem exec_tsByte {s : State} (b : Byte) (hoff : s.off.toNat < 8) : exec (.tsByte b) s =
    .next (takeBodyByte b { s with ts := setTsLane s.ts s.off.toNat b }) := if_pos hoff

/-- Settles O19: `setTsLane` is known bit by bit, and `takeBodyByte` changes only `sum`, `off` and the outputs. -/
theorem timestampByte : Obligations.TimestampByte := by
  unfold Obligations.TimestampByte
  exact ⟨fun b s hoff => ⟨_, exec_tsByte b hoff, getLsbD_setTsLane s.ts s.off.toNat b, rfl⟩,
    fun _ _ hst hok hoff hb => fetch_tsByte hst hok hb hoff⟩

/-! ### PARAM_BYTE -/

/-- `off - 8` wraps to no address of PB where `off` is below 8. -/
theorem pbAddress_lt_iff (off : Half) :
    (off - 8).toNat < Config.pbSize ↔ 8 ≤ off.toNat ∧ off.toNat - 8 < 65520 := by
  rw [show Config.pbSize = 65520 from rfl]
  bv_omega

theorem exec_paramByte {s : State} (b : Byte) (hlow : 8 ≤ s.off.toNat) (hhigh : s.off.toNat - 8 < 65520) :
    exec (.paramByte b) s = .next (takeBodyByte b (withPB (pbInsert s.pb (s.off.toNat - 8) b) s)) := by
  have hwrite := memWrite_of_lt b s ((pbAddress_lt_iff s.off).mpr ⟨hlow, hhigh⟩)
  rw [← toNat_sub_eight hlow]
  simp only [exec, execParamByte, hwrite]

theorem exec_paramByte_fault {s : State} (b : Byte) (h : ¬ (8 ≤ s.off.toNat ∧ s.off.toNat - 8 < 65520)) :
    exec (.paramByte b) s = .fault .bufferAddress := by
  have hwrite : memWrite (s.off - 8).toNat b s = .fault .bufferAddress := if_neg ((pbAddress_lt_iff s.off).not.mpr h)
  simp only [exec, execParamByte, hwrite]

theorem readPB_takeBodyByte (b : Byte) (s : State) (a : Nat) : readPB (takeBodyByte b s) a = readPB s a :=
  readPB_congr (takeBodyByte_pb b s) a

/-- A parameter byte's address lies within the frame's own parameters. -/
theorem pbAddress_lt_params {off len : Half} (hok : lengthOk len = true) (hlow : 8 ≤ off.toNat)
    (hhigh : off.toNat + 4 < len.toNat) : off.toNat - 8 < 4 * paramCount len ∧ 4 * paramCount len ≤ 65520 := by
  obtain ⟨n, hn, hlen⟩ := (lengthOk_iff_exists len).mp hok
  rw [paramCount_of_ok hok]
  omega

/-- Settles O20: the write is one insertion into PB, read back at its own address and unseen at every other. -/
theorem parameterByte : Obligations.ParameterByte := by
  unfold Obligations.ParameterByte
  refine ⟨fun b s hlow hhigh => ⟨_, exec_paramByte b hlow hhigh, ?_, fun a ha => ?_, rfl⟩,
    fun _ _ hst hok hlow hhigh hb => ⟨fetch_paramByte hst hok hb hlow hhigh, pbAddress_lt_params hok hlow hhigh⟩⟩
  · rw [readPB_takeBodyByte, readPB_pbInsert_same]
  · rw [readPB_takeBodyByte, readPB_pbInsert_ne s b ha]

/-! ### The trailer and the checksum byte -/

/-- Settles O22: each of the three operations is `takeBodyByte` after its own register is written. -/
theorem trailerBytes : Obligations.TrailerBytes := by
  unfold Obligations.TrailerBytes
  exact ⟨fun _ _ => ⟨rfl, rfl, rfl⟩, fun _ _ hst hok hb => fetch_trailer hst hok hb⟩

/-- Settles O23: CHK_BYTE writes `rxchk` and `st` alone, at the last offset of the body. -/
theorem checksumByte : Obligations.ChecksumByte := by
  unfold Obligations.ChecksumByte
  refine ⟨fun _ _ => rfl, fun _ s hst hok hoff hb => fetch_chkByte hb hst hok ?_⟩
  have hlen := ((lengthOk_iff s.len).mp hok).2
  bv_omega

/-! ### Offsets that the operations do not have (log entry 6) -/

theorem exec_tsByte_fault {s : State} (b : Byte) (h : 8 ≤ s.off.toNat) :
    exec (.tsByte b) s = .fault .timestampLane := if_neg (Nat.not_lt.mpr h)

/-- Settles O21: the place at which an operation is selected bounds `off`, and R35's well-formed `len` keeps a parameter
byte's address within PB. -/
theorem outOfRangeBodyOffsetStops : Obligations.OutOfRangeBodyOffsetStops := by
  unfold Obligations.OutOfRangeBodyOffsetStops
  refine ⟨fun b _ h => exec_tsByte_fault b h, fun b _ h => exec_paramByte_fault b (by omega),
    fun s hs => ⟨fun b hfetch => ?_, fun b hfetch => ?_⟩⟩
  · obtain ⟨-, -, hoff⟩ : selectedAt s (.tsByte b) := hfetch ▸ selectedAt_fetch s
    exact hoff
  · obtain ⟨hst, hlow, hhigh⟩ : selectedAt s (.paramByte b) := hfetch ▸ selectedAt_fetch s
    obtain ⟨hok, -⟩ := hs.payload hst
    obtain ⟨hown, hall⟩ := pbAddress_lt_params hok hlow hhigh
    exact ⟨hlow, hown.trans_le hall⟩

end Sys2Proof.Machine

/-! SUPPORT. The checksum validator (spec/43_validate.md): the VALIDATE step, which alone emits a RECORD, the running sum
as the checksum of the bytes received, and frames with changed bytes. -/

namespace Sys2Proof.Machine

/-! ### The VALIDATE step (R173) -/

theorem getElem?_paramWords {s : State} {k : Nat} (hk : k < (paramWords s).length) :
    (paramWords s)[k]? = some (paramWord s k) := by
  rw [List.getElem?_eq_getElem hk]
  simp [paramWords]

/-- Settles O25: the two branches of the comparison, and the selection in VALIDATE, where no byte can be taken. -/
theorem validateOutcome : Obligations.ValidateOutcome := by
  unfold Obligations.ValidateOutcome
  refine ⟨fun s hmatch => ⟨paramWords s, exec_validate_match hmatch, fun hok => ?_, fun _ => getElem?_paramWords⟩,
    fun s hne => exec_validate_mismatch hne, fun s hst hrst => ⟨fetch_validate hst hrst, ?_⟩⟩
  · rw [paramWords, List.length_map, List.length_range, paramCount_of_ok hok]
  · simp [inReady, hst, isReceiving]

/-! ### Where a RECORD comes from (R172) -/

theorem recordOf_eq_none_iff (o : Option FrameOutcome) : recordOf o = none ↔ outKind o ≠ 1 := by
  obtain _ | o := o
  · decide
  · cases o <;> simp [recordOf, outKind]

/-- No operation but VALIDATE emits a RECORD. -/
theorem exec_recordOf {i : Instr} {s t : State} (hne : i ≠ .validate) (h : exec i s = .next t) :
    recordOf t.out.outcome = none := by
  cases i
  case validate => exact absurd rfl hne
  case reservedState | unreachable => cases h
  case hdr2Match b | lenHi b | tsByte b =>
    simp only [exec, execHdr2Match, execLenHi, execTsByte] at h
    split at h <;> cases h <;> rfl
  case paramByte b =>
    simp only [exec, execParamByte] at h
    split at h <;> cases h
    rfl
  all_goals
    cases h
    rfl

/-- A step that emits a RECORD is VALIDATE after a comparison that succeeds. -/
theorem step_record {s t : State} {r : Record} (hstep : step s = .next t) (hout : t.out.outcome = some (.record r)) :
    fetch s = .validate ∧ s.sum = s.rxchk ∧ t.st = .idle ∧ t.out.consumed = false ∧ r = currentRecord s := by
  have hfetch : fetch s = .validate := by
    by_contra hne
    have hnone := exec_recordOf hne hstep
    simp [hout, recordOf] at hnone
  rw [step_eq, hfetch] at hstep
  by_cases hmatch : (beginStep s).sum = (beginStep s).rxchk
  · rw [exec_validate_match hmatch] at hstep
    cases hstep
    obtain rfl : currentRecord (beginStep s) = r := by simpa using hout
    exact ⟨hfetch, by simpa using hmatch, rfl, rfl, by rw [beginStep_eq]; rfl⟩
  · rw [exec_validate_mismatch hmatch] at hstep
    cases hstep
    simp at hout

/-- Settles O27: a RECORD step is VALIDATE after a match, and the record ports read only the step's record. -/
theorem recordOnlyWhenValid : Obligations.RecordOnlyWhenValid := by
  unfold Obligations.RecordOnlyWhenValid
  refine ⟨fun s t r hstep hout => ?_, fun s t _ hkind => ?_⟩
  · obtain ⟨hfetch, hmatch, hst, hcon, rfl⟩ := step_record hstep hout
    have hplace : selectedAt s .validate := hfetch ▸ selectedAt_fetch s
    exact ⟨hplace, hfetch, hmatch, hst, hcon, rfl, rfl, rfl, rfl, fun _ => getElem?_paramWords⟩
  · have hnone := (recordOf_eq_none_iff _).mpr hkind
    simp [outTs, outNparam, outParamWord, outMtype, outStat, outLoopc, hnone]

/-! ### The running sum (R171) -/

/-- The running sum over the body bytes, as one number. -/
theorem bodySum_eq (s : State) (n : Nat) :
    bodySum s n = BitVec.setWidth 8 s.len + BitVec.ofNat 8 (byteSum ((List.range n).map (bodyByte s))) := by
  induction n with
  | zero => simp [bodySum, byteSum]
  | succ n ih => rw [bodySum, ih, byteSum_range_succ, BitVec.ofNat_add, BitVec.ofNat_toNat, BitVec.setWidth_eq,
      BitVec.add_assoc]

/-- The body bytes before the checksum are the timestamp's, the parameters' and the three of the trailer (R72). -/
theorem map_bodyByte {s : State} {n : Nat} (hlen : s.len.toNat = 12 + 4 * n) :
    (List.range (s.len.toNat - 1)).map (bodyByte s) =
      (List.range 8).map (tsLane s.ts) ++ (List.range (4 * n)).map (readPB s) ++ [s.mtype, s.stat, s.loopc] := by
  have hts : (List.range 8).map (bodyByte s) = (List.range 8).map (tsLane s.ts) :=
    List.map_congr_left fun i hi => bodyByte_of_lt_eight (List.mem_range.mp hi)
  have hparams : (List.range (4 * n)).map (fun i => bodyByte s (8 + i)) = (List.range (4 * n)).map (readPB s) := by
    refine List.map_congr_left fun i hi => ?_
    have := List.mem_range.mp hi
    rw [bodyByte_param (by omega) (by omega), Nat.add_sub_cancel_left]
  have htrailer : (List.range 3).map (fun i => bodyByte s (8 + 4 * n + i)) = [s.mtype, s.stat, s.loopc] := by
    rw [← bodyByte_mtype (i := 8 + 4 * n) (by omega) (by omega),
      ← bodyByte_stat (i := 8 + 4 * n + 1) (by omega) (by omega),
      ← bodyByte_loopc (i := 8 + 4 * n + 2) (by omega) (by omega)]
    rfl
  rw [show s.len.toNat - 1 = 8 + 4 * n + 3 by omega, List.range_add, List.range_add, List.map_append, List.map_append,
    List.map_map, List.map_map, ← hts, ← hparams, ← htrailer]
  rfl

/-- Settles O26: the sum over the body bytes is the checksum's, whose high length byte falls away mod 256 and whose
additions may be reordered. -/
theorem runningSumIsChecksum : Obligations.RunningSumIsChecksum := by
  unfold Obligations.RunningSumIsChecksum
  refine ⟨fun len len' m st lc tb pby hlen => ?_, fun len m st lc tb pby => ?_, fun s hs hst => ?_⟩
  · have hlow : (BitVec.setWidth 8 len : Byte) = BitVec.setWidth 8 len' := by
      apply BitVec.eq_of_toNat_eq
      simpa only [BitVec.toNat_setWidth] using hlen
    rw [checksum_eq, checksum_eq, hlow]
  · rw [checksum_eq, checksum_eq, add_right_comm]
  · obtain ⟨hok, -, hsum⟩ := hs.validate hst
    obtain ⟨hmod, hmin⟩ := (lengthOk_iff s.len).mp hok
    rw [hsum, bodySum_eq, map_bodyByte (n := s.len.toNat / 4 - 3) (by omega), checksum_eq]
    simp only [byteSum_append, byteSum, BitVec.ofNat_add, BitVec.ofNat_toNat, BitVec.setWidth_eq]
    ac_rfl

/-! ### Frames with changed bytes (R174, R175) -/

/-- The sum that the block forms over the low byte of `r`'s length and the body bytes `bs`. -/
def frameSum (r : Record) (bs : List Byte) : Byte :=
  BitVec.ofNat 8 ((BitVec.setWidth 8 (frameLength r) : Byte).toNat + byteSum bs)

/-- The checksum byte of a record's own frame is the sum that the block forms over it. -/
theorem frameSum_recordBytes {r : Record} (hN : r.params.length ≤ 16380) :
    frameSum r (recordBytes r) = recordChecksum r := recordChecksum_eq_sum hN

/-- `r`'s header and length field, and then the body `bs` with its checksum byte `c`. -/
def frameAround (r : Record) (bs : List Byte) (c : Byte) : List Byte := [0xEB, 0x90] ++ lengthBytes r ++ (bs ++ [c])

theorem frameBytes_eq_frameAround (r : Record) : frameBytes r = frameAround r (recordBytes r) (recordChecksum r) := rfl

/-- From IDLE, what follows `r`'s length field is compared with its own last byte. -/
theorem frameAround_outcome {r : Record} {bs : List Byte} {c : Byte} {v : Inputs} {rest : List Inputs} {s : State}
    (hN : r.params.length ≤ 16380) (hbs : bs.length = (recordBytes r).length) (hst : s.st = .idle)
    (hrst : v.rst = false) (hin : s.inputs = (frameAround r bs c).map byteToken ++ v :: rest) :
    ∃ outs t r', trace ((frameBytes r).length + 1) s = some (outs, t) ∧ t.st = .idle ∧ t.inputs = rest ∧
      CarriesRecord r' bs ∧ emitted outs = [if frameSum r bs = c then .record r'
        else .checksumMismatch (frameLength r) (frameSum r bs) c] := by
  have hlenbytes := lengthBytes_append (frameLength r)
  have hlen : (frameLength r).toNat = bs.length + 1 := by
    rw [toNat_frameLength hN, hbs, (recordBytes_carries r).length]
    omega
  have hsize : (offered (frameAround r bs c) []).length = (frameBytes r).length := by
    rw [offered_no_gaps]
    simp [frameAround, frameBytes, hbs]
  rw [← offered_no_gaps] at hin
  obtain ⟨t, u, hrun, hreceived, hstep, -, hstu, hinu, hout⟩ := frame_outcome hst
    (hlenbytes.symm ▸ lengthOk_frameLength hN) (hlenbytes.symm ▸ hlen) hrst hin
  obtain ⟨outs, htrace, hem, -⟩ := hrun.then_step hstep
  refine ⟨outs, u, currentRecord t, hsize ▸ htrace, hstu, hinu, hreceived.carriesRecord, ?_⟩
  rw [hem, hout, hlenbytes]
  rfl

/-- One changed body byte moves the sum by the difference. -/
theorem frameSum_set (r : Record) {bs : List Byte} {i : Nat} {x : Byte} (y : Byte) (hx : bs[i]? = some x) :
    frameSum r (bs.set i y) + x = frameSum r bs + y := by
  have hsum := byteSum_set bs i x y hx
  apply BitVec.eq_of_toNat_eq
  simp only [frameSum, BitVec.toNat_add, BitVec.toNat_ofNat]
  omega

/-- Two changed body bytes whose changes cancel leave the sum as it is. -/
theorem frameSum_set_set (r : Record) {bs : List Byte} {i j : Nat} {x x' y y' : Byte} (hx : bs[i]? = some x)
    (hy : bs[j]? = some y) (hij : i ≠ j) (hcancel : x' + y' = x + y) :
    frameSum r ((bs.set i x').set j y') = frameSum r bs := by
  have hfirst := frameSum_set r x' hx
  have hsecond := frameSum_set r (bs := bs.set i x') y' ((List.getElem?_set_ne hij).trans hy)
  linear_combination hfirst + hsecond + hcancel

/-- A frame's byte after the length field, as a byte of its body and checksum. -/
theorem getElem?_frameBytes {r : Record} {j : Nat} (hj : 4 ≤ j) :
    (frameBytes r)[j]? = (recordBytes r ++ [recordChecksum r])[j - 4]? := by
  rw [← drop_frameBytes, List.getElem?_drop, Nat.add_sub_cancel' hj]

/-- A change after the length field leaves the header and the length field. -/
theorem set_after_length {r : Record} {body : List Byte} {j : Nat} (y : Byte) (hj : 4 ≤ j) :
    ([0xEB, 0x90] ++ lengthBytes r ++ body).set j y = [0xEB, 0x90] ++ lengthBytes r ++ body.set (j - 4) y :=
  List.set_append_right j y hj

theorem set_frameAround_body {r : Record} {bs : List Byte} {c : Byte} {j : Nat} (y : Byte) (hj : 4 ≤ j)
    (hlt : j - 4 < bs.length) : (frameAround r bs c).set j y = frameAround r (bs.set (j - 4) y) c := by
  rw [frameAround, set_after_length y hj, List.set_append_left _ _ hlt, frameAround]

theorem set_frameAround_checksum {r : Record} {bs : List Byte} {c : Byte} {j : Nat} (y : Byte) (hj : 4 ≤ j)
    (heq : j - 4 = bs.length) : (frameAround r bs c).set j y = frameAround r bs y := by
  rw [frameAround, set_after_length y hj, List.set_append_right _ _ heq.ge, heq, Nat.sub_self, frameAround]
  rfl

/-- A frame with one byte after the length field replaced by `y`, be it a body byte or the checksum byte, passes the
comparison only where `y` is the byte that was there. -/
theorem set_frameBytes_eq {r : Record} {j : Nat} {x : Byte} (y : Byte) (hN : r.params.length ≤ 16380) (hj : 4 ≤ j)
    (hx : (frameBytes r)[j]? = some x) :
    ∃ bs c, (frameBytes r).set j y = frameAround r bs c ∧ bs.length = (recordBytes r).length ∧
      (y = x → bs = recordBytes r) ∧ (frameSum r bs = c ↔ y = x) := by
  have hchk := frameSum_recordBytes hN
  rw [getElem?_frameBytes hj] at hx
  by_cases hbody : j - 4 < (recordBytes r).length
  case pos =>
    rw [List.getElem?_append_left hbody] at hx
    refine ⟨_, _, set_frameAround_body y hj hbody, List.length_set, fun hyx => ?_, ?_⟩
    · obtain ⟨_, rfl⟩ := List.getElem?_eq_some_iff.mp hx
      rw [hyx, List.set_getElem_self]
    · have hsum := frameSum_set r y hx
      rw [hchk] at hsum
      constructor
      · intro hmatch
        rwa [hmatch, BitVec.add_right_inj, eq_comm] at hsum
      · rintro rfl
        exact (BitVec.add_left_inj _).mp hsum
  case neg =>
    obtain ⟨hlt, -⟩ := List.getElem?_eq_some_iff.mp hx
    have hlast : j - 4 = (recordBytes r).length := by
      rw [List.length_append, List.length_singleton] at hlt
      omega
    rw [hlast, List.getElem?_concat_length, Option.some.injEq] at hx
    refine ⟨_, _, set_frameAround_checksum y hj hlast, rfl, fun _ => rfl, ?_⟩
    rw [hchk, hx, eq_comm]

/-- Settles O46: the changed frame is received whole, and its sum and checksum byte agree only where nothing changed. -/
theorem checksumSensitivity : Obligations.ChecksumSensitivity := by
  unfold Obligations.ChecksumSensitivity
  intro r f j x y v rest s hf hj hx hst hrst hin
  obtain ⟨hN, rfl⟩ := encodeFrame_eq_some hf
  obtain ⟨bs, c, hset, hlen, hsame, hmatch⟩ := set_frameBytes_eq y hN hj hx
  rw [hset] at hin
  obtain ⟨outs, t, r', hrun, hstt, hint, hcarries, hem⟩ := frameAround_outcome hN hlen hst hrst hin
  refine ⟨outs, t, hrun, hstt, hint, fun hyx => ?_, fun hyx => ?_⟩
  · have hbs := hsame hyx
    subst hbs
    rw [hem, if_pos (hmatch.mpr hyx), hcarries.unique (recordBytes_carries r)]
  · have hne := hmatch.not.mpr hyx
    exact ⟨_, _, hne, by rw [hem, if_neg hne]⟩

/-- A record is carried by one list of bytes only. -/
theorem CarriesRecord.bytes_unique {r : Record} {bs bs' : List Byte} (h : CarriesRecord r bs)
    (h' : CarriesRecord r bs') : bs = bs' := by
  have hlen := h.length
  have hlen' := h'.length
  apply List.ext_getElem?
  intro i
  have hplace : i < 8 ∨ (8 ≤ i ∧ i < 8 + 4 * r.params.length) ∨ i = 8 + 4 * r.params.length ∨
    i = 9 + 4 * r.params.length ∨ i = 10 + 4 * r.params.length ∨ 11 + 4 * r.params.length ≤ i := by omega
  obtain hi | ⟨hlow, hhigh⟩ | rfl | rfl | rfl | hi := hplace
  · rw [h.ts i hi, h'.ts i hi]
  · have hk : (i - 8) / 4 < r.params.length := by omega
    have hj : (i - 8) % 4 < 4 := Nat.mod_lt _ (by omega)
    have hp := List.getElem?_eq_getElem hk
    rw [show i = 8 + 4 * ((i - 8) / 4) + (i - 8) % 4 by omega, h.params _ _ _ hp hj, h'.params _ _ _ hp hj]
  · rw [h.mtype, h'.mtype]
  · rw [h.stat, h'.stat]
  · rw [h.loopc, h'.loopc]
  · rw [List.getElem?_eq_none (by omega), List.getElem?_eq_none (by omega)]

/-- Settles O49: the two changes leave the sum as it is, so a RECORD comes out, and its bytes are not `r`'s. -/
theorem cancellingChangesPass : Obligations.CancellingChangesPass := by
  unfold Obligations.CancellingChangesPass
  intro r f i j x x' y y' v rest s hf hi hij hj hx hy hxx' hcancel hst hrst hin
  obtain ⟨hN, rfl⟩ := encodeFrame_eq_some hf
  have hcarriesR := recordBytes_carries r
  have hend : j - 4 < (recordBytes r).length := by
    have hsize : (frameBytes r).length = (recordBytes r).length + 5 := by simp [frameBytes, lengthBytes]
    omega
  rw [getElem?_frameBytes hi, List.getElem?_append_left (by omega)] at hx
  rw [getElem?_frameBytes (by omega), List.getElem?_append_left hend] at hy
  have hset : ((frameBytes r).set i x').set j y' =
      frameAround r (((recordBytes r).set (i - 4) x').set (j - 4) y') (recordChecksum r) := by
    rw [frameBytes_eq_frameAround, set_frameAround_body x' hi (by omega),
      set_frameAround_body y' (by omega) (by rwa [List.length_set])]
  rw [hset] at hin
  obtain ⟨outs, t, r', hrun, -, -, hcarries, hem⟩ := frameAround_outcome hN (by simp) hst hrst hin
  have hsum : frameSum r (((recordBytes r).set (i - 4) x').set (j - 4) y') = recordChecksum r :=
    (frameSum_set_set r hx hy (by omega) hcancel).trans (frameSum_recordBytes hN)
  refine ⟨outs, t, r', hrun, by rw [hem, if_pos hsum], ?_, ?_⟩
  · rintro rfl
    rw [← hcarries.bytes_unique hcarriesR, List.getElem?_set_ne (by omega), List.getElem?_set_self (by omega)] at hx
    exact hxx' (Option.some.inj hx).symm
  · have hlen := hcarries.length
    rw [List.length_set, List.length_set, hcarriesR.length] at hlen
    omega

end Sys2Proof.Machine

/-! SUPPORT. Source events, stop, close, idle and terminal steps (spec/44_control.md): the selection of each, the runs
that leave the block as it is, and the steps that lead to IDLE or end the decoder. -/

namespace Sys2Proof.Machine

/-! ### Timeouts (R190 to R193) -/

/-- Where a timeout comes without a byte, the priority list looks at `st` alone. -/
theorem priorityChoice_timesOut {i : Inputs} (ht : timesOut i) (st : St) (f : BitVec 3) :
    priorityChoice st f i = priorityChoice st f timeoutToken := by
  obtain ⟨⟨hrst, hclosed, hstop⟩, hvalid, htimeout⟩ := ht
  cases st <;> simp [priorityChoice, timeoutToken, idleToken, hrst, hclosed, hstop, hvalid, htimeout]

theorem timesOut_timeoutToken : timesOut timeoutToken := ⟨⟨rfl, rfl, rfl⟩, rfl, rfl⟩

section
variable {s : State} (ht : timesOut (currentInputs s))
include ht

theorem fetch_timeoutIdle (hst : s.st = .idle) : fetch s = .timeoutIdle := by
  rw [fetch_eq, hst, priorityChoice_timesOut ht]
  rfl

theorem fetch_timeoutSync (hst : s.st = .sync) : fetch s = .timeoutSync := by
  rw [fetch_eq, hst, priorityChoice_timesOut ht]
  rfl

theorem fetch_timeoutLength (hst : s.st = .length) : fetch s = .timeoutLength := by
  rw [fetch_eq, hst, priorityChoice_timesOut ht]
  rfl

theorem fetch_timeoutPayload (hst : s.st = .payload) : fetch s = .timeoutPayload := by
  rw [fetch_eq, hst, priorityChoice_timesOut ht]
  rfl

end

theorem goTo_self {s : State} {st : St} (h : s.st = st) : goTo st s = s := by
  subst h
  rfl

theorem exec_timeoutIdle {s : State} (hst : s.st = .idle) : exec .timeoutIdle s = .next (finish false none s) := by
  rw [exec, execTimeoutIdle, goTo_self hst]

theorem exec_timeoutSync {s : State} (hst : s.st = .sync) : exec .timeoutSync s = .next (finish false none s) := by
  rw [exec, execTimeoutSync, goTo_self hst]

theorem exec_timeoutPayload (s : State) : exec .timeoutPayload s = .next (raiseError false .shortRead s) := rfl

/-- Before the length field a timeout changes no register. -/
theorem step_timeout_beforeLength {s : State} (hst : s.st = .idle ∨ s.st = .sync) (ht : timesOut (currentInputs s)) :
    step s = .next (finish false none (beginStep s)) := by
  rw [step_eq]
  obtain hst | hst := hst
  · rw [fetch_timeoutIdle ht hst, exec_timeoutIdle (by rw [beginStep_st, hst])]
  · rw [fetch_timeoutSync ht hst, exec_timeoutSync (by rw [beginStep_st, hst])]

/-- A step that takes and emits nothing, before a silent run. -/
theorem SilentRun.head {n k : Nat} {s t u : State} (hstep : step s = .next t) (hcon : t.out.consumed = false)
    (hnone : t.out.outcome = none) (hrun : SilentRun n k t u) : SilentRun (n + 1) k s u := by
  obtain ⟨outs, htrace, hem, hcount⟩ := hrun
  exact ⟨t.out :: outs, trace_succ hstep htrace, by simp [hnone, hem], by simp [hcon, hcount]⟩

theorem silentRun_timeouts {rest : List Inputs} : ∀ {n : Nat} {s : State}, (s.st = .idle ∨ s.st = .sync) →
    s.inputs = List.replicate n timeoutToken ++ rest →
    ∃ t, SilentRun n 0 s t ∧ t = { s with inputs := rest, out := t.out }
  | 0, s, _, hin => ⟨s, .nil s, by rw [show rest = s.inputs from hin.symm]⟩
  | n + 1, s, hst, hin => by
    have htimeout : timesOut (currentInputs s) := by
      rw [currentInputs_cons hin]
      exact timesOut_timeoutToken
    have hstep := step_timeout_beforeLength hst htimeout
    rw [beginStep_cons hin] at hstep
    obtain ⟨t, hrun, ht⟩ := silentRun_timeouts (s := finish false none { s with
      inputs := List.replicate n timeoutToken ++ rest, out := ⟨s.st, inReady s, false, none⟩ }) hst rfl
    exact ⟨t, hrun.head hstep rfl rfl, ht⟩

/-- Settles O29: `st` is assigned the value that it has, so each of the timeouts changes nothing. -/
theorem timeoutBeforeLengthRetries : Obligations.TimeoutBeforeLengthRetries := by
  unfold Obligations.TimeoutBeforeLengthRetries
  refine ⟨fun _ hst => ⟨exec_timeoutIdle hst, fun ht => fetch_timeoutIdle ht hst⟩,
    fun _ hst => ⟨exec_timeoutSync hst, fun ht => fetch_timeoutSync ht hst⟩, fun n rest s hst hin => ?_⟩
  obtain ⟨t, ⟨outs, hrun, hem, hcon⟩, ht⟩ := silentRun_timeouts hst hin
  exact ⟨outs, t, hrun, hem, hcon, ht⟩

/-- Settles O30: both operations are the error entry with SHORT_READ. -/
theorem timeoutInFrameIsShortRead : Obligations.TimeoutInFrameIsShortRead := by
  unfold Obligations.TimeoutInFrameIsShortRead
  exact ⟨fun _ => ⟨rfl, rfl⟩, fun _ ht => ⟨fetch_timeoutLength ht, fetch_timeoutPayload ht⟩⟩

/-! ### The short-read scenario (R198) -/

/-- From IDLE, the header and a well-formed length field lead to PAYLOAD. -/
theorem silentRun_toPayload {s : State} {lo hi : Byte} {gaps : List (List Byte)} {rest : List Inputs}
    (hst : s.st = .idle) (hok : lengthOk (hi ++ lo : Half) = true)
    (hin : s.inputs = offered [0xEB, 0x90, lo, hi] gaps ++ rest) :
    ∃ t, SilentRun (offered [0xEB, 0x90, lo, hi] gaps).length 4 s t ∧ t.st = .payload ∧ t.inputs = rest := by
  have hsplit : [0xEB, 0x90, lo, hi] = [0xEB, 0x90, lo] ++ [hi] := rfl
  rw [hsplit, offered_append] at hin ⊢
  rw [List.append_assoc] at hin
  obtain ⟨t, hheader, hstt, hofft, hlent, hint⟩ := silentRun_header hst hin
  have hwhole : lenWithHigh t.len hi = (hi ++ lo : Half) := by rw [hlent, lenWithHigh_setLenLow]
  have hbody := silentRun_offered_cons (by simp [hstt, isReceiving]) hint
    (fetch_lenHi (offering_offers ..) hstt hofft) (exec_lenHi_startsBody (hwhole ▸ hok)) rfl rfl (.nil _)
  rw [List.length_append]
  exact ⟨_, hheader.trans hbody, rfl, rfl⟩

/-- Settles O35: the length 12 is well-formed, so the timeout comes in PAYLOAD, and the byte after it in IDLE. -/
theorem shortReadScenario : Obligations.ShortReadScenario := by
  unfold Obligations.ShortReadScenario
  intro b rest s hst hin
  rw [← offered_no_gaps] at hin
  obtain ⟨t, ⟨outs, hrun, hem, -⟩, hstt, hint⟩ := silentRun_toPayload hst (by decide) hin
  have htimeout : timesOut (currentInputs t) := by
    rw [currentInputs_cons hint]
    exact timesOut_timeoutToken
  have hstep : step t = .next (raiseError false .shortRead (beginStep t)) := by
    rw [step_eq, fetch_timeoutPayload htimeout hstt, exec_timeoutPayload]
  refine ⟨outs, t, _, hrun, hem, hstt, hstep, rfl, rfl, fetch_hdr1Scan ?_ rfl⟩
  rw [currentInputs_cons (i := byteToken b) (rest := rest) (by simp [hint])]
  exact byteToken_offers b

/-! ### Stop, close and quiet steps (R194 to R196) -/

section
variable {s : State} (hst : isReceiving s.st = true) (hrst : (currentInputs s).rst = false)
include hst hrst

theorem fetch_close (hclosed : (currentInputs s).srcClosed = true) : fetch s = .close := by
  rw [fetch_eq]
  obtain h | h | h | h := (isReceiving_iff s.st).mp hst <;> simp [h, priorityChoice, hrst, hclosed]

theorem fetch_stop (hclosed : (currentInputs s).srcClosed = false) (hstop : (currentInputs s).stop = true) :
    fetch s = .stop := by
  rw [fetch_eq]
  obtain h | h | h | h := (isReceiving_iff s.st).mp hst <;> simp [h, priorityChoice, hrst, hclosed, hstop]

end

/-- No byte can be taken in a step that is disturbed. -/
theorem inReady_disturbed {s : State} (h : ¬ undisturbed (currentInputs s)) : inReady s = false := by
  rw [Bool.eq_false_iff, ne_eq, inReady_iff]
  exact fun hready => h hready.1

/-- Settles O31: STOP is the entry of STOPPED, and `stop` comes after `rst` and `src_closed` alone in the priority. -/
theorem stopEndsDecoder : Obligations.StopEndsDecoder := by
  unfold Obligations.StopEndsDecoder
  exact ⟨fun _ => rfl, fun _ hst hrst hclosed hstop =>
    ⟨fetch_stop ((isReceiving_iff _).mpr hst) hrst hclosed hstop,
      inReady_disturbed (by simp [undisturbed, hstop])⟩⟩

/-- Settles O32: CLOSE is the entry of CLOSED, and `src_closed` comes after `rst` alone in the priority. -/
theorem closeEndsDecoder : Obligations.CloseEndsDecoder := by
  unfold Obligations.CloseEndsDecoder
  exact ⟨fun _ => rfl, fun _ hst hrst hclosed =>
    ⟨fetch_close ((isReceiving_iff _).mpr hst) hrst hclosed, inReady_disturbed (by simp [undisturbed, hclosed])⟩⟩

/-- Settles O33: a run of quiet steps is a run of NOPs. -/
theorem quietStepChangesNothing : Obligations.QuietStepChangesNothing := by
  unfold Obligations.QuietStepChangesNothing
  exact ⟨fun _ => rfl, fun _ hst hquiet => fetch_quiet ((isReceiving_iff _).mpr hst) hquiet,
    fun ds rest s hst hin => trace_quiet ds rest s ((isReceiving_iff _).mpr hst) hin⟩

/-! ### Terminal states (R197) -/

theorem fetch_reset {s : State} (hrst : (currentInputs s).rst = true) : fetch s = .reset :=
  (fetch_eq s).trans (if_pos hrst)

section
variable {s : State} (hst : s.st = .stopped ∨ s.st = .closed) (hrst : (currentInputs s).rst = false)
include hst hrst

theorem fetch_halt : fetch s = if s.st = .stopped then .haltStopped else .haltClosed := by
  obtain h | h := hst <;> simp [fetch_eq, h, priorityChoice, hrst]

theorem step_halt :
    step s = .next (onlyOutputs s { stOut := s.st, inReady := false, consumed := false, outcome := none }) := by
  have hready : inReady s = false := by obtain h | h := hst <;> simp [inReady, h, isReceiving]
  have hexec : exec (fetch s) (beginStep s) = .next (finish false none (beginStep s)) := by
    rw [fetch_halt hst hrst]
    split <;> rfl
  rw [step_eq, hexec, beginStep, hready]
  rfl

end

/-- Settles O34: without `rst` a terminal state's step is its own HALT, which keeps `st`. -/
theorem terminalStatesHalt : Obligations.TerminalStatesHalt := by
  unfold Obligations.TerminalStatesHalt
  refine ⟨fun _ => ⟨rfl, rfl⟩, fun _ hst hrst => ⟨fetch_halt hst hrst, step_halt hst hrst⟩,
    fun s t hst hstep hleaves => ?_⟩
  cases hrst : (currentInputs s).rst
  case true => exact fetch_reset hrst
  case false =>
    rw [step_halt hst hrst] at hstep
    cases hstep
    exact absurd (takeInputs_st s) hleaves

/-! ### Where an operation leads (R199) -/

/-- Only STOP and CLOSE enter a terminal state, and what emits an outcome, but for CLOSE, goes to IDLE. -/
theorem exec_destination {i : Instr} {s t : State} (h : exec i s = .next t) :
    (t.out.outcome = none ∧ (t.st = s.st ∨ isTerminal t.st = false)) ∨ t.st = .idle ∨
      (i = .stop ∧ t.out.outcome = none) ∨ (i = .close ∧ t.out.outcome = some .sourceClosed) := by
  cases i
  case reservedState | unreachable => cases h
  case stop => cases h; exact .inr (.inr (.inl ⟨rfl, rfl⟩))
  case close => cases h; exact .inr (.inr (.inr ⟨rfl, rfl⟩))
  case reset | timeoutIdle | timeoutLength | timeoutPayload => cases h; exact .inr (.inl rfl)
  case haltStopped | haltClosed | nop | lenLo | mtypeByte | statusByte | loopcByte =>
    cases h
    exact .inl ⟨rfl, .inl rfl⟩
  case timeoutSync | chkByte => cases h; exact .inl ⟨rfl, .inr rfl⟩
  case hdr1Scan b =>
    cases h
    by_cases hb : b = Config.hdr1 <;> simp [hb, isTerminal]
  case validate =>
    simp only [exec, execValidate] at h
    split at h <;> cases h <;> exact .inr (.inl rfl)
  case hdr2Match | lenHi =>
    simp only [exec, execHdr2Match, execLenHi] at h
    split at h <;> cases h
    · exact .inl ⟨rfl, .inr rfl⟩
    · exact .inr (.inl rfl)
  case tsByte =>
    simp only [exec, execTsByte] at h
    split at h <;> cases h
    exact .inl ⟨rfl, .inl rfl⟩
  case paramByte =>
    simp only [exec, execParamByte] at h
    split at h <;> cases h
    rename_i hwrite
    obtain ⟨-, rfl⟩ := memWrite_next hwrite
    exact .inl ⟨rfl, .inl rfl⟩

/-- A step that enters a terminal state is STOP or CLOSE. -/
theorem fetch_entersTerminal {s t : State} (hs : isTerminal s.st = false) (hstep : step s = .next t)
    (ht : isTerminal t.st = true) : fetch s = .stop ∨ fetch s = .close := by
  rw [step_eq] at hstep
  obtain ⟨-, hkept | hopen⟩ | hidle | ⟨hstop, -⟩ | ⟨hclose, -⟩ := exec_destination hstep
  · rw [hkept, beginStep_st, hs] at ht
    cases ht
  · rw [hopen] at ht
    cases ht
  · rw [hidle] at ht
    cases ht
  · exact .inl hstop
  · exact .inr hclose

theorem step_frameError_idle {s t : State} {o : FrameOutcome} (hstep : step s = .next t)
    (hout : t.out.outcome = some o) (herror : isFrameError o = true) : t.st = .idle := by
  rw [step_eq] at hstep
  obtain ⟨hnone, -⟩ | hidle | ⟨-, hnone⟩ | ⟨-, hclosed⟩ := exec_destination hstep
  · simp [hnone] at hout
  · exact hidle
  · simp [hnone] at hout
  · obtain rfl : FrameOutcome.sourceClosed = o := by simpa [hclosed] using hout
    cases herror

/-- STOP and CLOSE are not selected while `stop` and `src_closed` are 0. -/
theorem fetch_undisturbed {s : State} (hi : undisturbed (currentInputs s)) :
    fetch s ≠ .stop ∧ fetch s ≠ .close := by
  obtain ⟨hrst, hclosed, hstop⟩ := hi
  rw [fetch_eq]
  cases s.st
  case validate | stopped | closed | reserved => simp [priorityChoice, hrst]
  all_goals
    simp only [priorityChoice, hrst, hclosed, hstop, Bool.false_eq_true, if_false]
    split_ifs <;> simp

/-- An undisturbed step keeps R35 and stays out of the terminal states. -/
theorem FrameInv.step_undisturbed {s : State} (hs : FrameInv s) (hopen : isTerminal s.st = false)
    (hi : undisturbed (currentInputs s)) :
    ∃ t, step s = .next t ∧ t.inputs = s.inputs.tail ∧ FrameInv t ∧ isTerminal t.st = false := by
  obtain ⟨-, t, hstep⟩ := frameStateNeverFaults s hs
  obtain ⟨-, -, -, hinputs, -⟩ := exec_frame hstep
  obtain ⟨hstop, hclose⟩ := fetch_undisturbed hi
  refine ⟨t, hstep, by rw [hinputs, beginStep_inputs], stepKeepsFrameState s t hs hstep, ?_⟩
  rw [Bool.eq_false_iff]
  exact fun hterminal => (fetch_entersTerminal hopen hstep hterminal).elim hstop hclose

theorem FrameInv.trace_undisturbed {rest : List Inputs} : ∀ {is : List Inputs} {s : State}, FrameInv s →
    isTerminal s.st = false → (∀ i ∈ is, undisturbed i) → s.inputs = is ++ rest →
    ∃ outs t, trace is.length s = some (outs, t) ∧ isTerminal t.st = false ∧ FrameInv t
  | [], s, hs, hopen, _, _ => ⟨[], s, rfl, hopen, hs⟩
  | i :: is, s, hs, hopen, his, hin => by
    obtain ⟨hi, hlater⟩ := List.forall_mem_cons.mp his
    obtain ⟨t, hstep, hint, ht, hopent⟩ := hs.step_undisturbed hopen (by rwa [currentInputs_cons hin])
    obtain ⟨outs, u, hrun, hopenu, hu⟩ := ht.trace_undisturbed hopent hlater (by rw [hint, hin]; rfl)
    exact ⟨t.out :: outs, u, trace_succ hstep hrun, hopenu, hu⟩

/-- Settles O36: a frame error leads to IDLE, and without `stop` and `src_closed` nothing ends the decoder. -/
theorem frameErrorsNeverEnd : Obligations.FrameErrorsNeverEnd := by
  unfold Obligations.FrameErrorsNeverEnd
  exact ⟨fun _ _ => fetch_entersTerminal, fun _ _ _ => step_frameError_idle,
    fun _ _ _ hs hopen his hin => hs.trace_undisturbed hopen his hin⟩

end Sys2Proof.Machine

/-! SUPPORT. Errors and the outcome port (spec/60_exceptions.md): the priority of simultaneous events, the port's fields
by the step's kind, the outcome read back from them, and the state after a frame-level error. -/

namespace Sys2Proof.Machine

/-! ### The priority of simultaneous events (R214) -/

/-- Settles O4: `decodeSelect_selectWordOf`, in which each row's match and mask are read field by field. -/
theorem dispatchFollowsPriority : Obligations.DispatchFollowsPriority := by
  unfold Obligations.DispatchFollowsPriority
  exact decodeSelect_selectWordOf

/-! ### The fields of the outcome port (R211, R212) -/

theorem outValid_iff (o : Option FrameOutcome) : outValid o = true ↔ outKind o ≠ 0 := by
  obtain _ | o := o
  · decide
  · cases o <;> simp [outValid, outKind]

theorem outKind_ne_seven (o : Option FrameOutcome) : outKind o ≠ 7 := by
  obtain _ | o := o
  · decide
  · cases o <;> simp [outKind]

/-- 14 bits are enough for the number of parameters. -/
theorem toNat_outNparam_record {r : Record} (hN : r.params.length ≤ 16380) :
    (outNparam (some (.record r))).toNat = r.params.length := by
  change (BitVec.ofNat 14 r.params.length).toNat = r.params.length
  rw [BitVec.toNat_ofNat, Nat.mod_eq_of_lt (by omega)]

theorem outParamWord_record (r : Record) (k : Nat) : outParamWord (some (.record r)) k = r.params.getD k 0 := rfl

/-- Only a RECORD step drives the fields of a record. -/
theorem recordPorts_eq_zero {o : Option FrameOutcome} (h : outKind o ≠ 1) :
    outTs o = 0 ∧ outNparam o = 0 ∧ (∀ k, outParamWord o k = 0) ∧ outMtype o = 0 ∧ outStat o = 0 ∧
      outLoopc o = 0 := by
  simp [outTs, outNparam, outParamWord, outMtype, outStat, outLoopc, (recordOf_eq_none_iff o).mpr h]

/-- Only CHECKSUM_MISMATCH and MALFORMED_LENGTH drive the length and checksum fields. -/
theorem diagnosticPorts_eq_zero {o : Option FrameOutcome} (hchecksum : outKind o ≠ 3) (hlength : outKind o ≠ 5) :
    outLen o = 0 ∧ outComputed o = 0 ∧ outReceived o = 0 := by
  obtain _ | o := o
  · exact ⟨rfl, rfl, rfl⟩
  · cases o
    case checksumMismatch => exact absurd rfl hchecksum
    case malformedLength => exact absurd rfl hlength
    all_goals exact ⟨rfl, rfl, rfl⟩

/-- Settles O40: the codes, the record's fields and the diagnostics are read off kind by kind. -/
theorem outcomePortFields : Obligations.OutcomePortFields := by
  unfold Obligations.OutcomePortFields
  refine ⟨⟨rfl, rfl, rfl, rfl, fun _ => rfl, fun _ _ _ => rfl, fun _ => rfl⟩,
    fun o => ⟨outValid_iff o, outKind_ne_seven o⟩, fun r hN => ?_, fun _ _ _ => ⟨rfl, rfl, rfl⟩,
    fun _ => ⟨rfl, rfl, rfl⟩, fun _ => recordPorts_eq_zero, fun _ => diagnosticPorts_eq_zero⟩
  refine ⟨rfl, toNat_outNparam_record hN, fun k hk => ?_, fun k hk => ?_, rfl, rfl, rfl, rfl, rfl, rfl⟩
  · rw [outParamWord_record, List.getD_eq_getElem _ _ hk, List.getElem?_eq_getElem hk]
  · rw [outParamWord_record, List.getD_eq_default _ _ hk]

/-! ### The outcome read back from the port (R213) -/

/-- The record that the port's fields show: `out_nparam` says how many of the parameter words belong to it. -/
def portRecord (o : Option FrameOutcome) : Record where
  ts := outTs o
  params := (List.range (outNparam o).toNat).map (outParamWord o)
  mtype := outMtype o
  stat := outStat o
  loopc := outLoopc o

/-- The outcome of a code of R211 with the fields of the port. -/
def outcomeOfPort (kind : BitVec 3) (r : Record) (len : Half) (computed received : Byte) : Option FrameOutcome :=
  match kind.toNat with
  | 1 => some (.record r)
  | 2 => some .headerMismatch
  | 3 => some (.checksumMismatch len computed received)
  | 4 => some .shortRead
  | 5 => some (.malformedLength len)
  | 6 => some .sourceClosed
  | _ => none

/-- What R213 asks of an outcome's record: at most 16380 parameters. -/
def paramsBounded (o : Option FrameOutcome) : Prop := ∀ r, o = some (.record r) → r.params.length ≤ 16380

theorem portRecord_record {r : Record} (hN : r.params.length ≤ 16380) : portRecord (some (.record r)) = r := by
  have hparams : (List.range r.params.length).map (outParamWord (some (.record r))) = r.params := by
    refine List.ext_getElem (by simp) fun k _ hk => ?_
    rw [List.getElem_map, List.getElem_range, outParamWord_record, List.getD_eq_getElem _ _ hk]
  rw [portRecord, toNat_outNparam_record hN, hparams]
  rfl

theorem outcomeOfPort_ports {o : Option FrameOutcome} (ho : paramsBounded o) :
    outcomeOfPort (outKind o) (portRecord o) (outLen o) (outComputed o) (outReceived o) = o := by
  obtain _ | o := o
  · rfl
  · cases o
    case record r => exact congrArg (some ∘ FrameOutcome.record) (portRecord_record (ho r rfl))
    all_goals rfl

theorem toNat_outNparam_le {o : Option FrameOutcome} (ho : paramsBounded o) : (outNparam o).toNat ≤ 16380 := by
  obtain _ | o := o
  · exact Nat.zero_le _
  · cases o
    case record r => exact (toNat_outNparam_record (ho r rfl)).trans_le (ho r rfl)
    all_goals exact Nat.zero_le _

/-- Settles O41: `outcomeOfPort` reads either outcome back from the same fields. -/
theorem outcomePortFaithful : Obligations.OutcomePortFaithful := by
  unfold Obligations.OutcomePortFaithful
  intro o o' ho ho' hkind hts hcount hwords hmtype hstat hloopc hlen hcomputed hreceived
  have hparams : (List.range (outNparam o').toNat).map (outParamWord o) =
      (List.range (outNparam o').toNat).map (outParamWord o') :=
    List.map_congr_left fun k hk => hwords k ((List.mem_range.mp hk).trans_le (toNat_outNparam_le ho'))
  have hrecord : portRecord o = portRecord o' := by
    simp only [portRecord, hts, hcount, hparams, hmtype, hstat, hloopc]
  rw [← outcomeOfPort_ports ho, ← outcomeOfPort_ports ho', hkind, hrecord, hlen, hcomputed, hreceived]

/-! ### The state after a frame-level error (R215) -/

/-- An operation that emits a frame-level error is the error entry, in LEN_HI once the malformed length is in `len`. -/
theorem exec_frameError {i : Instr} {s t : State} {o : FrameOutcome} (h : exec i s = .next t)
    (hout : t.out.outcome = some o) (herror : isFrameError o = true) :
    ∃ c, (t = raiseError c o s ∧ ∀ l, o ≠ .malformedLength l) ∨
      ∃ b l, i = .lenHi b ∧ o = .malformedLength l ∧ t = raiseError c o { s with len := l } := by
  cases i
  case reservedState | unreachable => cases h
  case timeoutLength | timeoutPayload =>
    cases h
    cases hout
    exact ⟨_, .inl ⟨rfl, nofun⟩⟩
  case hdr2Match b =>
    by_cases hb : b = 0x90
    · rw [hb, exec_hdr2Match_hdr2] at h
      cases h
      cases hout
    · rw [exec_hdr2Match_mismatch hb] at h
      cases h
      cases hout
      exact ⟨_, .inl ⟨rfl, nofun⟩⟩
  case lenHi b =>
    by_cases hok : lengthOk (lenWithHigh s.len b) = true
    · rw [exec_lenHi_startsBody hok] at h
      cases h
      cases hout
    · rw [exec_lenHi_malformed hok] at h
      cases h
      cases hout
      exact ⟨_, .inr ⟨b, _, rfl, rfl, rfl⟩⟩
  case validate =>
    by_cases hmatch : s.sum = s.rxchk
    · rw [exec_validate_match hmatch] at h
      cases h
      cases hout
      cases herror
    · rw [exec_validate_mismatch hmatch] at h
      cases h
      cases hout
      exact ⟨_, .inl ⟨rfl, nofun⟩⟩
  case close =>
    cases h
    cases hout
    cases herror
  case tsByte | paramByte =>
    simp only [exec, execTsByte, execParamByte] at h
    split at h <;> cases h
    cases hout
  all_goals
    cases h
    cases hout

/-- Settles O42: the error entry, after the inputs have been sampled. -/
theorem errorEntryOnlyReturnsToIdle : Obligations.ErrorEntryOnlyReturnsToIdle := by
  unfold Obligations.ErrorEntryOnlyReturnsToIdle
  intro s t o hstep hout herror
  rw [step_eq] at hstep
  obtain ⟨c, ⟨rfl, hne⟩ | ⟨b, l, hfetch, rfl, rfl⟩⟩ := exec_frameError hstep hout herror
  · exact ⟨rfl, fun _ => beginStep_len s, fun l hl => absurd hl (hne l)⟩
  · exact ⟨rfl, fun hne => absurd rfl (hne l), fun _ hl => ⟨FrameOutcome.malformedLength.inj hl, b, hfetch⟩⟩

end Sys2Proof.Machine

/-! SUPPORT. Reset and hazards (spec/70_reset_and_hazards.md): the states that no later output can tell apart, the held
levels that end the decoder, and the reset step. -/

namespace Sys2Proof.Machine

/-! ### The bytes received so far -/

/-- The block in PAYLOAD after the body bytes `bs` of a frame (spec/10_state.md R35 (c)); at VALIDATE it is
`FrameReceived`. -/
structure BodyReceived (bs : List Byte) (t : State) : Prop where
  st : t.st = .payload
  ok : lengthOk t.len = true
  off : t.off.toNat = bs.length
  room : t.off.toNat < t.len.toNat
  sum : t.sum = BitVec.ofNat 8 (t.len.toNat + byteSum bs)
  held : ∀ i b, bs[i]? = some b → bodyByte t i = b

theorem BodyReceived.start {t : State} (hst : t.st = .payload) (hok : lengthOk t.len = true) (hoff : t.off = 0)
    (hsum : t.sum = sumSeed t.len) : BodyReceived [] t where
  st := hst
  ok := hok
  off := by simp [hoff]
  room := by
    have hmin := ((lengthOk_iff _).mp hok).2
    simp [hoff]
    omega
  sum := hsum.trans (sumSeed_eq_ofNat t.len)
  held _ _ h := by simp at h

theorem BodyReceived.receives {bs cs : List Byte} {s t : State} (h : BodyReceived bs s) (hst : ReceivesBody cs s t)
    (hroom : s.off.toNat + cs.length < s.len.toNat) : BodyReceived (bs ++ cs) t where
  st := hst.st.trans h.st
  ok := by rw [hst.len, h.ok]
  off := by rw [hst.off, h.off, List.length_append]
  room := by rwa [hst.off, hst.len]
  sum := by rw [hst.sum, h.sum, hst.len, byteSum_append, ← BitVec.ofNat_add, Nat.add_assoc]
  held i b hib := by
    by_cases hi : i < bs.length
    case pos =>
      rw [List.getElem?_append_left hi] at hib
      rw [hst.kept i (by rwa [h.off]), h.held i b hib]
    case neg =>
      rw [List.getElem?_append_right (by omega)] at hib
      rw [← hst.taken _ b hib, h.off, Nat.add_sub_cancel' (by omega)]

theorem BodyReceived.withOutputs {bs : List Byte} {t : State} (h : BodyReceived bs t) (o : Outputs)
    (is : List Inputs) (n : Nat) : BodyReceived bs { t with out := o, inputs := is, draws := n } :=
  ⟨h.st, h.ok, h.off, h.room, h.sum, h.held⟩

theorem FrameReceived.withOutputs {bs : List Byte} {x : Byte} {t : State} (h : FrameReceived bs x t) (o : Outputs)
    (is : List Inputs) (n : Nat) : FrameReceived bs x { t with out := o, inputs := is, draws := n } :=
  ⟨h.st, h.ok, h.len, h.sum, h.rxchk, h.held⟩

/-- CHK_BYTE after the last byte that `sum` covers. -/
theorem BodyReceived.exec_chkByte {bs : List Byte} {s : State} (x : Byte) (h : BodyReceived bs s)
    (hlast : s.off.toNat + 1 = s.len.toNat) :
    ∃ t, exec (.chkByte x) s = .next t ∧ t.out.outcome = none ∧ FrameReceived bs x t := by
  have hlen : s.len.toNat = bs.length + 1 := by rw [← hlast, h.off]
  refine ⟨_, rfl, rfl, rfl, h.ok, hlen, h.sum, rfl, fun i b hib => ?_⟩
  obtain ⟨hi, -⟩ := List.getElem?_eq_some_iff.mp hib
  exact (bodyByte_setRxchk s x i .validate (by omega)).trans (h.held i b hib)

/-- A frame's length, sum, checksum byte and record are all in the bytes received. -/
theorem FrameReceived.unique {bs : List Byte} {x : Byte} {s s' : State} (h : FrameReceived bs x s)
    (h' : FrameReceived bs x s') :
    s.len = s'.len ∧ s.sum = s'.sum ∧ s.rxchk = s'.rxchk ∧ currentRecord s = currentRecord s' := by
  have hlen : s.len = s'.len := BitVec.eq_of_toNat_eq (h.len.trans h'.len.symm)
  exact ⟨hlen, by rw [h.sum, h'.sum, hlen], h.rxchk.trans h'.rxchk.symm, h.carriesRecord.unique h'.carriesRecord⟩

/-- VALIDATE in one: its outcome, and IDLE. -/
theorem exec_validate_eq (s : State) : exec .validate s = .next (finish false
    (some (if s.sum = s.rxchk then .record (currentRecord s) else .checksumMismatch s.len s.sum s.rxchk))
    (goTo .idle s)) := by
  by_cases hmatch : s.sum = s.rxchk
  · rw [exec_validate_match hmatch, if_pos hmatch]
  · rw [exec_validate_mismatch hmatch, if_neg hmatch]
    rfl

/-! ### States that agree on the current frame (R241) -/

/-- `s` and `s'` are in the same state of the frame machine and have received the same bytes of the current frame. What
the registers and PB hold beside these bytes is free: hence nothing is asked outside a frame. -/
structure SameFrame (s s' : State) : Prop where
  st : s.st = s'.st
  notReserved : s.st ≠ .reserved
  length : s.st = .length →
    s.off = s'.off ∧ (s.off = 0 ∨ s.off = 1 ∧ ∀ b, lenWithHigh s.len b = lenWithHigh s'.len b)
  payload : s.st = .payload → s.len = s'.len ∧ ∃ bs, BodyReceived bs s ∧ BodyReceived bs s'
  validate : s.st = .validate → ∃ bs x, FrameReceived bs x s ∧ FrameReceived bs x s'

section
variable {s s' : State}

theorem sameFrame_outsideFrame (hst : s.st = s'.st)
    (hout : s.st = .idle ∨ s.st = .sync ∨ s.st = .stopped ∨ s.st = .closed) : SameFrame s s' := by
  obtain h | h | h | h := hout <;> exact ⟨hst, by simp [h], by simp [h], by simp [h], by simp [h]⟩

theorem sameFrame_length (hst : s.st = .length) (hst' : s'.st = .length) (hoff : s.off = s'.off)
    (hlen : s.off = 0 ∨ s.off = 1 ∧ ∀ b, lenWithHigh s.len b = lenWithHigh s'.len b) : SameFrame s s' where
  st := hst.trans hst'.symm
  notReserved := by simp [hst]
  length _ := ⟨hoff, hlen⟩
  payload := by simp [hst]
  validate := by simp [hst]

theorem sameFrame_payload {bs : List Byte} (hlen : s.len = s'.len) (h : BodyReceived bs s)
    (h' : BodyReceived bs s') : SameFrame s s' where
  st := h.st.trans h'.st.symm
  notReserved := by simp [h.st]
  length := by simp [h.st]
  payload _ := ⟨hlen, bs, h, h'⟩
  validate := by simp [h.st]

theorem sameFrame_validate {bs : List Byte} {x : Byte} (h : FrameReceived bs x s) (h' : FrameReceived bs x s') :
    SameFrame s s' where
  st := h.st.trans h'.st.symm
  notReserved := by simp [h.st]
  length := by simp [h.st]
  payload := by simp [h.st]
  validate _ := ⟨bs, x, h, h'⟩

/-- The outputs and the environment's fields hold no byte of the frame. -/
theorem SameFrame.withOutputs (h : SameFrame s s') (o o' : Outputs) (is is' : List Inputs) (n n' : Nat) :
    SameFrame { s with out := o, inputs := is, draws := n } { s' with out := o', inputs := is', draws := n' } where
  st := h.st
  notReserved := h.notReserved
  length := h.length
  payload hst := by
    obtain ⟨hlen, bs, hbs, hbs'⟩ := h.payload hst
    exact ⟨hlen, bs, hbs.withOutputs .., hbs'.withOutputs ..⟩
  validate hst := by
    obtain ⟨bs, x, hframe, hframe'⟩ := h.validate hst
    exact ⟨bs, x, hframe.withOutputs .., hframe'.withOutputs ..⟩

theorem SameFrame.beginStep (h : SameFrame s s') : SameFrame (beginStep s) (beginStep s') := by
  rw [beginStep_eq, beginStep_eq]
  exact h.withOutputs ..

/-! ### A step from two such states -/

theorem SameFrame.fsel_eq (h : SameFrame s s') : fsel s.st s.off s.len = fsel s'.st s'.off s'.len := by
  rw [← h.st]
  cases hst : s.st
  case length =>
    obtain ⟨hoff, -⟩ := h.length hst
    simp only [fsel, hoff]
  case payload =>
    obtain ⟨hlen, bs, hbs, hbs'⟩ := h.payload hst
    rw [fsel, fsel, hlen, hbs.off, hbs'.off]
  all_goals rfl

theorem currentInputs_congr (hin : s.inputs = s'.inputs) (hdraws : s.draws = s'.draws) :
    currentInputs s = currentInputs s' := by
  simp only [currentInputs, hin, hdraws]

/-- The row UNREACHABLE has no place in these states (spec/30_encoding.md R76 (a)). -/
theorem SameFrame.not_unreachable (h : SameFrame s s') : ¬ selectedAt s .unreachable := by
  rintro (⟨hst, h0, h1⟩ | ⟨hst, hno⟩)
  · obtain ⟨-, hoff | ⟨hoff, -⟩⟩ := h.length hst
    · exact h0 hoff
    · exact h1 hoff
  · obtain ⟨-, bs, hbs, -⟩ := h.payload hst
    have hmin := ((lengthOk_iff _).mp hbs.ok).2
    have hroom := hbs.room
    omega

/-- A body byte, into whose register the frame's own place puts it, is received in both. -/
theorem SameFrame.exec_bodyOperand {i : Instr} {b : Byte} (h : SameFrame s s') (hop : i.bodyOperand = some b)
    (hsel : selectedAt s i) (hsel' : selectedAt s' i) :
    ∃ t t', exec i s = .next t ∧ exec i s' = .next t' ∧ SameFrame t t' ∧ t.out.outcome = t'.out.outcome := by
  obtain ⟨hst, hroom⟩ := room_of_bodyOperand hop hsel
  obtain ⟨-, hroom'⟩ := room_of_bodyOperand hop hsel'
  obtain ⟨hlen, bs, hbs, hbs'⟩ := h.payload hst
  obtain ⟨t, hexec, hbody, -, hout⟩ := exec_receivesBody hop hsel hbs.ok
  obtain ⟨t', hexec', hbody', -, hout'⟩ := exec_receivesBody hop hsel' hbs'.ok
  exact ⟨t, t', hexec, hexec',
    sameFrame_payload (by rw [hbody.len, hbody'.len, hlen]) (hbs.receives hbody hroom)
      (hbs'.receives hbody' hroom'),
    by rw [hout, hout']⟩

/-- One operation, at its own place, leads two such states to two such states, with one outcome and no fault. -/
theorem SameFrame.exec {i : Instr} (h : SameFrame s s') (hsel : selectedAt s i) (hsel' : selectedAt s' i) :
    ∃ t t', exec i s = .next t ∧ exec i s' = .next t' ∧ SameFrame t t' ∧ t.out.outcome = t'.out.outcome := by
  cases i
  case reservedState => exact absurd hsel h.notReserved
  case unreachable => exact absurd hsel h.not_unreachable
  case tsByte | paramByte | mtypeByte | statusByte | loopcByte => exact h.exec_bodyOperand rfl hsel hsel'
  case reset | close | stop | timeoutIdle | timeoutSync | timeoutLength | timeoutPayload =>
    exact ⟨_, _, rfl, rfl, sameFrame_outsideFrame rfl (by simp), rfl⟩
  case haltStopped | haltClosed | nop => exact ⟨_, _, rfl, rfl, h.withOutputs .., rfl⟩
  case hdr1Scan b =>
    refine ⟨_, _, rfl, rfl, sameFrame_outsideFrame rfl ?_, rfl⟩
    by_cases hb : b = Config.hdr1 <;> simp [hb]
  case hdr2Match b =>
    by_cases hb : b = 0x90
    · subst hb
      exact ⟨_, _, rfl, rfl, sameFrame_length rfl rfl rfl (.inl rfl), rfl⟩
    · exact ⟨_, _, exec_hdr2Match_mismatch hb s, exec_hdr2Match_mismatch hb s',
        sameFrame_outsideFrame rfl (.inl rfl), rfl⟩
  case lenLo b =>
    refine ⟨_, _, rfl, rfl, sameFrame_length hsel.1 hsel'.1 rfl (.inr ⟨rfl, fun hi => ?_⟩), rfl⟩
    exact (lenWithHigh_setLenLow s.len b hi).trans (lenWithHigh_setLenLow s'.len b hi).symm
  case lenHi b =>
    obtain ⟨-, hoff | ⟨-, hlow⟩⟩ := h.length hsel.1
    · exact absurd (hoff.symm.trans hsel.2) (by decide)
    by_cases hok : lengthOk (lenWithHigh s.len b) = true
    · have hok' := hlow b ▸ hok
      exact ⟨_, _, exec_lenHi_startsBody hok, exec_lenHi_startsBody hok',
        sameFrame_payload (hlow b) (.start rfl hok rfl rfl) (.start rfl hok' rfl rfl), rfl⟩
    · refine ⟨_, _, exec_lenHi_malformed hok, exec_lenHi_malformed (hlow b ▸ hok),
        sameFrame_outsideFrame rfl (.inl rfl), ?_⟩
      simp [hlow b]
  case chkByte b =>
    obtain ⟨hst, -, hlast⟩ := hsel
    obtain ⟨-, -, hlast'⟩ := hsel'
    obtain ⟨-, bs, hbs, hbs'⟩ := h.payload hst
    obtain ⟨t, hexec, hout, hframe⟩ := hbs.exec_chkByte b hlast
    obtain ⟨t', hexec', hout', hframe'⟩ := hbs'.exec_chkByte b hlast'
    exact ⟨t, t', hexec, hexec', sameFrame_validate hframe hframe', hout.trans hout'.symm⟩
  case validate =>
    obtain ⟨bs, x, hframe, hframe'⟩ := h.validate hsel
    obtain ⟨hlen, hsum, hrxchk, hrecord⟩ := hframe.unique hframe'
    exact ⟨_, _, exec_validate_eq s, exec_validate_eq s', sameFrame_outsideFrame rfl (.inl rfl),
      by simp [hlen, hsum, hrxchk, hrecord]⟩

theorem outputs_eq {o o' : Outputs} (hst : o.stOut = o'.stOut) (hready : o.inReady = o'.inReady)
    (hcon : o.consumed = o'.consumed) (hout : o.outcome = o'.outcome) : o = o' := by
  cases o
  cases o'
  simp_all

/-- A step shows the same in both, and keeps them alike. -/
theorem SameFrame.step (h : SameFrame s s') (hin : s.inputs = s'.inputs) (hdraws : s.draws = s'.draws) :
    ∃ t t', step s = .next t ∧ step s' = .next t' ∧ t.out = t'.out ∧ SameFrame t t' ∧ t.inputs = t'.inputs ∧
      t.draws = t'.draws := by
  have hcur := currentInputs_congr hin hdraws
  have hfetch : fetch s' = fetch s := by rw [fetch_eq, fetch_eq, h.fsel_eq, h.st, hcur]
  have hready : inReady s = inReady s' := by simp only [inReady, h.st, hcur]
  obtain ⟨t, t', hexec, hexec', hsame, hout⟩ := h.beginStep.exec
    (selectedAt_beginStep.mpr (selectedAt_fetch s)) (selectedAt_beginStep.mpr (hfetch ▸ selectedAt_fetch s'))
  obtain ⟨hreadyt, hstOut, hcon, hint, hdrawst, -⟩ := exec_frame hexec
  obtain ⟨hreadyt', hstOut', hcon', hint', hdrawst', -⟩ := exec_frame hexec'
  refine ⟨t, t', hexec, by rw [step_eq, hfetch, hexec'], ?_, hsame, ?_, ?_⟩
  · apply outputs_eq
    · simp [hstOut, hstOut', h.st]
    · simp [hreadyt, hreadyt', hready]
    · rw [hcon, hcon']
    · exact hout
  · simp [hint, hint', hin]
  · simp [hdrawst, hdrawst', hin, hdraws]

end

/-- A run of any length shows the same from both, without a fault. -/
theorem SameFrame.trace : ∀ (n : Nat) {s s' : State}, SameFrame s s' → s.inputs = s'.inputs →
    s.draws = s'.draws →
    ∃ outs t t', trace n s = some (outs, t) ∧ trace n s' = some (outs, t') ∧ SameFrame t t'
  | 0, s, s', h, _, _ => ⟨[], s, s', rfl, rfl, h⟩
  | n + 1, s, s', h, hin, hdraws => by
    obtain ⟨t, t', hstep, hstep', hout, hsame, hint, hdrawst⟩ := h.step hin hdraws
    obtain ⟨outs, u, u', hrun, hrun', hlast⟩ := SameFrame.trace n hsame hint hdrawst
    exact ⟨t.out :: outs, u, u', trace_succ hstep hrun, hout ▸ trace_succ hstep' hrun', hlast⟩

/-- Settles O50: IDLE asks nothing of the registers and PB, and each step reads only what the run has put there. -/
theorem launchRegistersUnseen : Obligations.LaunchRegistersUnseen := by
  unfold Obligations.LaunchRegistersUnseen
  intro n s s' hst hst' hin hdraws
  have hsame : SameFrame s s' := sameFrame_outsideFrame (hst.trans hst'.symm) (.inl hst)
  obtain ⟨outs, t, t', hrun, hrun', hlast⟩ := hsame.trace n hin hdraws
  exact ⟨outs, t, t', hrun, hrun', hlast.st⟩

/-! ### Held levels (R244) -/

/-- While `stop` or `src_closed` is held, a step ends the decoder or stays in an ended one, but for VALIDATE, whose own
outcome comes first (spec/60_exceptions.md R214). -/
theorem FrameInv.step_held {s : State} (hs : FrameInv s) (hrst : (currentInputs s).rst = false)
    (hheld : (currentInputs s).stop = true ∨ (currentInputs s).srcClosed = true) :
    ∃ t, step s = .next t ∧ (isTerminal t.st = true ∨ s.st = .validate ∧ t.st = .idle) := by
  cases hst : s.st
  case reserved => exact absurd hst hs.notReserved
  case validate =>
    rw [step_eq, fetch_validate hst hrst, exec_validate_eq]
    exact ⟨_, rfl, .inr ⟨rfl, rfl⟩⟩
  case stopped | closed =>
    refine ⟨_, step_halt (by simp [hst]) hrst, .inl ?_⟩
    simp [onlyOutputs, hst, isTerminal]
  case idle | sync | length | payload =>
    have hreceiving : isReceiving s.st = true := by rw [hst]; rfl
    rw [step_eq]
    cases hclosed : (currentInputs s).srcClosed
    case true =>
      rw [fetch_close hreceiving hrst hclosed]
      exact ⟨_, rfl, .inl rfl⟩
    case false =>
      rw [fetch_stop hreceiving hrst hclosed (by simpa [hclosed] using hheld)]
      exact ⟨_, rfl, .inl rfl⟩

/-- Settles O37: the first step leaves VALIDATE if it was there, and the second ends the decoder. -/
theorem heldLevelEndsDecoder : Obligations.HeldLevelEndsDecoder := by
  unfold Obligations.HeldLevelEndsDecoder
  intro s i j rest hs hin hi hj hheld
  have hcur := currentInputs_cons hin
  obtain ⟨t, hstep, hfirst⟩ := hs.step_held (by rwa [hcur]) (by rw [hcur]; exact hheld.imp And.left And.left)
  obtain ⟨-, -, -, hint, -⟩ := exec_frame hstep
  have hcurt : currentInputs t = j := currentInputs_cons (rest := rest) (by simp [hint, hin])
  obtain ⟨u, hstep', hsecond⟩ := (stepKeepsFrameState s t hs hstep).step_held (by rwa [hcurt])
    (by rw [hcurt]; exact hheld.imp And.right And.right)
  refine ⟨_, u, trace_succ hstep (trace_succ hstep' rfl), hsecond.resolve_right ?_⟩
  rintro ⟨hvalidate, -⟩
  obtain hterminal | ⟨-, hidle⟩ := hfirst
  · rw [hvalidate] at hterminal
    cases hterminal
  · rw [hvalidate] at hidle
    cases hidle

/-! ### Reset (R240) -/

/-- RESET twice is RESET once: it writes fixed values, and PB not at all. -/
theorem exec_reset_reset {s t : State} (h : exec .reset s = .next t) : exec .reset t = .next t := by
  cases h
  rfl

/-- Settles O38: RESET's own assignments, and `rst` as the first of the priority. -/
theorem resetStep : Obligations.ResetStep := by
  unfold Obligations.ResetStep
  exact ⟨fun s => ⟨_, rfl, rfl, rfl, rfl, rfl, rfl, rfl, rfl, rfl, rfl, rfl, readPB_congr rfl, rfl, rfl, rfl⟩,
    fun _ _ => exec_reset_reset, fun _ hrst => ⟨fetch_reset hrst, inReady_disturbed (by simp [undisturbed, hrst])⟩,
    rfl, rfl, rfl, rfl, rfl, rfl, rfl, rfl, rfl⟩

end Sys2Proof.Machine
